-- ==== Sys2Proof/Word.lean ====
section
/-!
DEFINITION. The value widths of 00_scope.md rule R11: every value is an unsigned integer of a
stated width, written as a bit vector of that width.
-/

namespace Sys2Proof

/-- `u8`: an image byte, CRCA, CRCB. -/
abbrev Byte := BitVec 8

/-- `u16`: the CRC accumulator, RX_HI, PEER_CRC. -/
abbrev Half := BitVec 16

/-- `u32`: a frame, a response, a register window value. -/
abbrev Word := BitVec 32

end Sys2Proof
end

