-- ==== Sys2Proof/Config.lean ====
section
/-!
DEFINITION. What 00_scope.md rule R10 leaves to the implementation: the length-word mode and the
block's clock. A model takes each as an argument; here they are the field `cfg` of the state, which
no step changes, so a statement about every state is a statement about every value of them.
-/

namespace Sys2Proof

/-- LEN_WORD_MODE (R10, R111): how `(paddedLength - 0x190) / 4` is formed below 0x190. -/
inductive LenWordMode where
  | unsigned
  | signed
deriving DecidableEq, Repr

/-- The parameters of one implementation (R10). -/
structure Config where
  /-- LEN_WORD_MODE, default `Unsigned`. -/
  lenWordMode : LenWordMode
  /-- F_CLK in hertz, the clock that drives the DELAY counter. -/
  fClk : Nat
deriving DecidableEq, Repr

/-- F_CLK is an OPEN parameter (R10, D9): this constant has no known value. It is the `fClk` of
the reset state; no proof can depend on a number for it. -/
opaque Config.openFClk : Nat

/-- The parameters of the reset state: the spec's default mode (R10), an open clock. -/
def Config.initial : Config := { lenWordMode := .unsigned, fClk := Config.openFClk }

end Sys2Proof
end

