-- ==== Sys2Proof/Syntax.lean ====
section
/-!
DEFINITION. The operations of the block: one constructor per row of the opcode table. Twenty are
FSM operations, selected by the STATE register (30_encoding.md rule R79); three are host commands
on the register window (30_encoding.md rule R83, 45_host_commands.md rule R174).
-/

namespace Sys2Proof

inductive Instr where
  /-- STATE 0, R170: quiescent after reset. -/
  | idle
  /-- STATE 1, R130: poll the peer with 0x6202. -/
  | hsPoll
  /-- STATE 2, R131: the inter-poll delay. -/
  | hsWait
  /-- STATE 3, R132: request boot mode. -/
  | bootreq
  /-- STATE 4, R133: send one header frame. -/
  | hdr
  /-- STATE 5, R134: the end-of-header marker. -/
  | hdrEnd
  /-- STATE 6, R140: the first word of the key exchange. -/
  | keySync
  /-- STATE 7, R141: the first key request. -/
  | keyReq1
  /-- STATE 8, R142: the second key request; its response is the token. -/
  | keyReq2
  /-- STATE 9, R143: acknowledge with the adjusted crcA. -/
  | keyAck
  /-- STATE 10, R144: send the length word. -/
  | len
  /-- STATE 11, R150: send one encrypted payload word. -/
  | pay
  /-- STATE 12, R152: fold the session parameters into the CRC. -/
  | fold
  /-- STATE 13, R160: the first 0x0065. -/
  | finStart
  /-- STATE 14, R161: poll for the acknowledgment. -/
  | finPoll
  /-- STATE 15, R162: the delay after each finalization poll. -/
  | finWait
  /-- STATE 16, R163: request the CRC exchange. -/
  | finReq
  /-- STATE 17, R164: exchange the final CRC. -/
  | finCrc
  /-- STATE 18, R175: quiescent after success. -/
  | done
  /-- STATE 19, R176: quiescent after failure. -/
  | error
  /-- R171: a host write to CTRL with bit 0 = 1. Bits [31:1] of the data are ignored (R83). -/
  | start
  /-- R173: a host write of `v` to offset 0x08. -/
  | lenWrite (v : Word)
  /-- R174: a host read at the window offset `off`. -/
  | regRead (off : BitVec 6)
deriving DecidableEq, Repr

/-- One host access to the register window, as the block's bus interface sees it
(10_state.md rules R25 and R38): direction, size in bytes, offset from the window base, write data
(meaningless in a read). -/
structure Access where
  write : Bool
  size : Nat
  offset : Word
  data : Word
deriving DecidableEq, Repr

/-- What selects an operation of the block: the STATE code, or a host access. The two decode
spaces are the two `format`s of the opcode table. -/
inductive OpWord where
  | state (code : BitVec 5)
  | access (a : Access)
deriving DecidableEq, Repr

end Sys2Proof
end

