-- ==== Sys2Proof/WellFormed.lean ====
section
/-!
DEFINITION. The static check on an operation: a register read names an offset that is a multiple
of 4 in 0x00 to 0x3C (10_state.md rule R38). Every other operand value is admitted.
-/

namespace Sys2Proof

/-- The operand check of 10_state.md rule R38. -/
def Instr.wf : Instr → Bool
  | .regRead off => off.extractLsb' 0 2 == 0#2
  | .idle | .hsPoll | .hsWait | .bootreq | .hdr | .hdrEnd | .keySync | .keyReq1 | .keyReq2
  | .keyAck | .len | .pay | .fold | .finStart | .finPoll | .finWait | .finReq | .finCrc
  | .done | .error | .start | .lenWrite _ => true

end Sys2Proof
end

