-- ==== Sys2Proof/Decode.lean ====
section
/-!
DEFINITION. What the block does next is decoded from the STATE register (30_encoding.md rule R79)
or from a host access to the register window (30_encoding.md rule R83). Decoding is total and
rejects by name; the encoder follows it, written from the same tables.
-/

namespace Sys2Proof

/-! The STATE codes of 10_state.md rule R21. -/

abbrev Code.idle : BitVec 5 := 0#5
abbrev Code.hsPoll : BitVec 5 := 1#5
abbrev Code.hsWait : BitVec 5 := 2#5
abbrev Code.bootreq : BitVec 5 := 3#5
abbrev Code.hdr : BitVec 5 := 4#5
abbrev Code.hdrEnd : BitVec 5 := 5#5
abbrev Code.keySync : BitVec 5 := 6#5
abbrev Code.keyReq1 : BitVec 5 := 7#5
abbrev Code.keyReq2 : BitVec 5 := 8#5
abbrev Code.keyAck : BitVec 5 := 9#5
abbrev Code.len : BitVec 5 := 10#5
abbrev Code.pay : BitVec 5 := 11#5
abbrev Code.fold : BitVec 5 := 12#5
abbrev Code.finStart : BitVec 5 := 13#5
abbrev Code.finPoll : BitVec 5 := 14#5
abbrev Code.finWait : BitVec 5 := 15#5
abbrev Code.finReq : BitVec 5 := 16#5
abbrev Code.finCrc : BitVec 5 := 17#5
abbrev Code.done : BitVec 5 := 18#5
abbrev Code.error : BitVec 5 := 19#5

/-! The window offsets of 10_state.md rule R25 that a command writes. -/

abbrev Offset.ctrl : Word := 0x00#32
abbrev Offset.len : Word := 0x08#32

/-- Why a selecting word is no operation of the block. -/
inductive Reject where
  /-- STATE 20 to 31 is never held (R81). -/
  | reservedState (code : BitVec 5)
  /-- The offset is not in the 64-byte window (R25). -/
  | outsideWindow (offset : Word)
  /-- Not a 32-bit access (R38). -/
  | accessSize (size : Nat)
  /-- The offset is not a multiple of 4 (R38). -/
  | misaligned (offset : Word)
  /-- A write the window ignores: CTRL with bit 0 = 0 (R26), a read-only register, a reserved
  offset (R37). -/
  | ignoredWrite (offset : Word)
deriving DecidableEq, Repr

/-- The operation a STATE code selects (R79; the rows of format STATE, mask 0x1F). -/
def decodeState (code : BitVec 5) : Except Reject Instr :=
  match code.toNat with
  | 0 => .ok .idle
  | 1 => .ok .hsPoll
  | 2 => .ok .hsWait
  | 3 => .ok .bootreq
  | 4 => .ok .hdr
  | 5 => .ok .hdrEnd
  | 6 => .ok .keySync
  | 7 => .ok .keyReq1
  | 8 => .ok .keyReq2
  | 9 => .ok .keyAck
  | 10 => .ok .len
  | 11 => .ok .pay
  | 12 => .ok .fold
  | 13 => .ok .finStart
  | 14 => .ok .finPoll
  | 15 => .ok .finWait
  | 16 => .ok .finReq
  | 17 => .ok .finCrc
  | 18 => .ok .done
  | 19 => .ok .error
  | _ => .error (.reservedState code)

/-- The command a host access is (R83, R174), or why it is none (R25, R26, R37, R38). -/
def decodeAccess (a : Access) : Except Reject Instr :=
  if 64 ≤ a.offset.toNat then .error (.outsideWindow a.offset)
  else if a.size ≠ 4 then .error (.accessSize a.size)
  else if a.offset.extractLsb' 0 2 ≠ 0#2 then .error (.misaligned a.offset)
  else if a.write = false then .ok (.regRead (a.offset.setWidth 6))
  else if a.offset = Offset.ctrl then
    if a.data.getLsbD 0 then .ok .start else .error (.ignoredWrite a.offset)
  else if a.offset = Offset.len then .ok (.lenWrite a.data)
  else .error (.ignoredWrite a.offset)

/-- The decoder: total on every selecting word. -/
def decode : OpWord → Except Reject Instr
  | .state code => decodeState code
  | .access a => decodeAccess a

/-- A 32-bit write of `v` at offset `off`. -/
def Access.writeWord (off v : Word) : Access :=
  { write := true, size := 4, offset := off, data := v }

/-- A 32-bit read at offset `off`. -/
def Access.readWord (off : Word) : Access :=
  { write := false, size := 4, offset := off, data := 0#32 }

/-- The access to window offset `addr - base` that a platform makes of an absolute address, for a
window placed at `base` (00_scope.md rule R10: the base is a parameter, only offsets are
architectural). -/
def Access.atAddress (base addr : Word) (a : Access) : Access :=
  { a with offset := addr - base }

/-- The encoder: the word that selects an operation (R21, R83, R25). START is written with its
ignored bits zero. -/
def encode : Instr → OpWord
  | .idle => .state Code.idle
  | .hsPoll => .state Code.hsPoll
  | .hsWait => .state Code.hsWait
  | .bootreq => .state Code.bootreq
  | .hdr => .state Code.hdr
  | .hdrEnd => .state Code.hdrEnd
  | .keySync => .state Code.keySync
  | .keyReq1 => .state Code.keyReq1
  | .keyReq2 => .state Code.keyReq2
  | .keyAck => .state Code.keyAck
  | .len => .state Code.len
  | .pay => .state Code.pay
  | .fold => .state Code.fold
  | .finStart => .state Code.finStart
  | .finPoll => .state Code.finPoll
  | .finWait => .state Code.finWait
  | .finReq => .state Code.finReq
  | .finCrc => .state Code.finCrc
  | .done => .state Code.done
  | .error => .state Code.error
  | .start => .access (Access.writeWord Offset.ctrl 1#32)
  | .lenWrite v => .access (Access.writeWord Offset.len v)
  | .regRead off => .access (Access.readWord (off.setWidth 32))

/-- The selecting word that a number of the opcode table stands for. The table holds rows of two
decode spaces whose numbers overlap (STATE 8 and LEN_WRITE's offset 0x08, STATE 1 and START's bit
0), so the width the table gives the row settles what the number alone does not: no bits at all is
REG_READ (mask 0x00), the 8-bit number 0x08 is LEN_WRITE's offset (STATE 8 has a 9-bit row), an
odd 32-bit number that is no other STATE code is START's write data, and all else is a STATE code in
bits [4:0] (mask 0x1F). A host command's remaining bits are zero. DESIGN CHOICE, log 9. -/
def tableWord (nbits w : Nat) : OpWord :=
  if nbits = 0 then .access (Access.readWord (BitVec.ofNat 32 w))
  else if nbits = 8 ∧ w = 8 then .access (Access.writeWord Offset.len 0#32)
  else if nbits = 32 ∧ w % 2 = 1 ∧ (w = 1 ∨ 32 ≤ w) then
    .access (Access.writeWord Offset.ctrl (BitVec.ofNat 32 w))
  else .state (BitVec.ofNat 5 w)

/-- The operation the decoder reads from a number of the opcode table. -/
def decodeTableWord (nbits w : Nat) : Option Instr :=
  match decode (tableWord nbits w) with
  | .ok i => some i
  | .error _ => none

end Sys2Proof
end

