-- ==== Sys2Proof/Machine/State.lean ====
section
/-!
DEFINITION. The state of the machine as plain data: the eighteen elements of 10_state.md rule R20,
and beside them what an operation reads from or writes to outside the block (the image space, the
transport's input pins, the host's read data, the agents' coming moves, the parameters).
-/

namespace Sys2Proof.Machine

/-- The image space (20_memory.md rule R51) as address and byte pairs in canonical form. -/
abbrev Memory := List Host.Cell

/-- PHASE, the exchange sub-state (10_state.md rule R22). Its code 3 is never held (30_encoding.md rule
R81), so the type has no value for it. -/
inductive Phase where
  /-- Code 0: the state's frame has not yet been formed. -/
  | issue
  /-- Code 1: the request is offered to the transport. -/
  | req
  /-- Code 2: the block waits for the response. -/
  | rsp
deriving DecidableEq, Repr

/-- The transport's account of the exchange requests: each accepted request is completed exactly once
(60_exceptions.md rule R216, 70_reset_and_hazards.md rule R226). -/
inductive Request where
  /-- No request has been accepted yet. -/
  | none
  /-- The last request is not yet completed. -/
  | outstanding
  /-- The last request was completed. -/
  | answered
deriving DecidableEq, Repr

/-- The transport's input pins as sampled in one cycle (10_state.md rule R40). -/
structure Pins where
  /-- `tx_ready`: the transport accepts the request this cycle. -/
  txReady : Bool
  /-- `rx_valid`: the completion strobe. -/
  rxValid : Bool
  /-- `rx_word`: the response. -/
  rxWord : Word
  /-- `rx_fail`: the exchange failed. -/
  rxFail : Bool
deriving DecidableEq, Repr

/-- The transport makes no move. -/
def Pins.quiet : Pins := { txReady := false, rxValid := false, rxWord := 0#32, rxFail := false }

/-- One move of an agent (60_exceptions.md rule R216), one atomic transition (20_memory.md rule
R64). -/
inductive Input where
  /-- Time: the block takes one F_CLK cycle and sees these pins. -/
  | clock (p : Pins)
  /-- The host accesses the register window. -/
  | host (a : Access)
  /-- The host writes a byte of the image space. -/
  | image (off : Nat) (b : Byte)
  /-- The host asserts `rst` for a cycle (70_reset_and_hazards.md rule R220). -/
  | rst
  /-- The host resets or drains the transport (70_reset_and_hazards.md rule R222). -/
  | drain
  /-- The host changes the transport's link configuration (70_reset_and_hazards.md rule R224). -/
  | relink
deriving DecidableEq, Repr

structure State where
  /-- STATE, the FSM state code and the block's program counter (R21). -/
  state : BitVec 5
  /-- PHASE, the exchange sub-state (R22). -/
  phase : Phase
  /-- POLLHIT, the result of the last poll (R23). -/
  pollhit : Bool
  /-- DELAY, the poll-delay down counter (R24). -/
  delay : Word
  /-- TXW, the latched outbound frame (R40). -/
  txw : Word
  /-- LEN, the image length (R28). -/
  len : Word
  /-- PADLEN, the padded length (R29). -/
  padlen : Word
  /-- CURSOR, the byte offset into the image (R30). -/
  cursor : Word
  /-- SEED, the keystream state (R31). -/
  seed : Word
  /-- CRC, the accumulator (R32). -/
  crc : Half
  /-- CRCA, the adjusted crcA (R33). -/
  crca : Byte
  /-- CRCB (R33). -/
  crcb : Byte
  /-- ERRCODE, the error class (R27, R201). -/
  errcode : BitVec 3
  /-- ERRSTATE, the STATE that raised the error (R27). -/
  errstate : BitVec 5
  /-- ERR_OFFSET (R34). -/
  errOffset : Word
  /-- ERR_INFO (R35). -/
  errInfo : Word
  /-- PEER_CRC, the peer's returned CRC (R36). -/
  peerCrc : Half
  /-- CRC_MATCH (R36). -/
  crcMatch : Bool
  /-- The image space (R51). -/
  image : Memory
  /-- The transport's input pins as last sampled (R40). -/
  pins : Pins
  /-- The value the last register read returned (R174). -/
  rdata : Word
  /-- A reset cut an exchange and the transport is not yet drained (R222). -/
  cut : Bool
  /-- The transport's account of the requests (R216, R226). -/
  request : Request
  /-- The agents' coming moves, first move first (R64, R216). -/
  script : List Input
  /-- The moves the agents make after those, over and over, if any (R216). -/
  loop : List Input
  /-- The parameters of the implementation (R10); no step changes them. -/
  cfg : Config
deriving DecidableEq, Repr

/-- Why the machine stops with a fault. Only a move of the host can cause one; no operation of the
block faults. -/
inductive Fault where
  /-- `hostAccess`: a register access outside the 64-byte window, which does not exist (R25).
  Safe: the block is not addressed. -/
  | outsideWindow (offset : Word)
  /-- `hostImageWrite`: an image write outside the 18-bit space, which does not exist (R51).
  Safe. -/
  | outsideImage (offset : Nat)
deriving DecidableEq, Repr

/-- Why the machine gives no next state. Each is a `refuse` of 93_implementation_defined.md. -/
inductive Refusal where
  /-- Raised by `exec` for an operation that has no meaning yet. Safe. -/
  | notModelled (mnemonic : String)
  /-- Raised by a block cycle in a STATE code that is never held (R81). Safe. -/
  | reservedState (code : BitVec 5)
  /-- Raised by a register access that is not 32 bits wide (R38). Safe. -/
  | accessSize (size : Nat)
  /-- Raised by a register access at an offset that is not a multiple of 4 (R38). Safe. -/
  | misaligned (offset : Word)
  /-- Raised by a host write below LEN to the image during a session (R60). Safe. -/
  | imageWriteWhileBusy (offset : Nat)
  /-- Raised by a link reconfiguration during a session (R224). Safe. -/
  | relinkWhileBusy
  /-- Raised by a START that would begin a session before the transport is reset or drained after a
  reset that cut an exchange (R222). Safe. -/
  | startBeforeDrain
  /-- Raised by a block cycle in which the transport completes the last request a second time (R226).
  Safe. -/
  | secondCompletion
deriving DecidableEq, Repr

/-- What one operation answers. -/
abbrev Result := Host.Outcome State Fault Refusal

/-- The machine right after reset: every element of R20 is 0 (10_state.md rule R46). Beside the
block, no image byte is listed (log 3), the pins are quiet (log 2), the read data is 0 (log 4), no
exchange was cut (log 5), no request was accepted (log 8), no move is scripted (log 1) and the parameters are the initial ones. -/
def State.reset : State where
  state := 0#5
  phase := .issue
  pollhit := false
  delay := 0#32
  txw := 0#32
  len := 0#32
  padlen := 0#32
  cursor := 0#32
  seed := 0#32
  crc := 0#16
  crca := 0#8
  crcb := 0#8
  errcode := 0#3
  errstate := 0#5
  errOffset := 0#32
  errInfo := 0#32
  peerCrc := 0#16
  crcMatch := false
  image := []
  pins := Pins.quiet
  rdata := 0#32
  cut := false
  request := .none
  script := []
  loop := []
  cfg := Config.initial

end Sys2Proof.Machine
end

