-- ==== Sys2Proof/Machine/Ops.lean ====
section
/-!
DEFINITION. The shared operations: reading and writing the image space, entering the error state
(the block's exception entry, 60_exceptions.md rule R203), leaving it (START's clear, 45 rule R171),
reset (70 rule R220), the two-phase exchange step (40 rules R118 and R119) and the delay step (41
rule R131, 44 rule R162).
-/

namespace Sys2Proof.Machine

/-! ## The image space -/

/-- The image space has 18-bit offsets (R51). -/
def imageSize : Nat := 0x40000

/-- What a byte of the image space that the host has not written reads as. The spec does not say;
DESIGN CHOICE, log 3. -/
def Memory.unlisted : Byte := 0#8

/-- The byte at an address of the image space, before the masking of R53. -/
def Memory.read : Memory → Nat → Byte
  | [], _ => Memory.unlisted
  | (k, v) :: m, a => if a = k then v else Memory.read m a

/-- Write one byte, keeping the canonical form. -/
def Memory.write : Memory → Nat → Byte → Memory
  | [], a, b => if b = Memory.unlisted then [] else [(a, b)]
  | (k, v) :: m, a, b =>
    if a < k then (if b = Memory.unlisted then (k, v) :: m else (a, b) :: (k, v) :: m)
    else if a = k then (if b = Memory.unlisted then m else (a, b) :: m)
    else (k, v) :: Memory.write m a b

/-- The canonical form: addresses strictly rising and inside the space, no entry equal to what an
unlisted address reads as. -/
abbrev Memory.wf (m : Memory) : Prop :=
  m.Pairwise (fun c d => c.1 < d.1) ∧ ∀ c ∈ m, c.2 ≠ Memory.unlisted ∧ c.1 < imageSize

/-- The 18-bit address the image port drives for a byte offset (10_state.md rule R41). -/
def imgAddr (off : Word) : BitVec 18 := off.setWidth 18

/-- The image byte at an offset as the block sees it: 0x00 at offsets `>= LEN`, whatever the image
space holds there (20_memory.md rule R53). -/
def State.img (s : State) (off : Word) : Byte :=
  if off < s.len then Memory.read s.image (imgAddr off).toNat else 0x00#8

/-- `MemRead(off, 2)`, little-endian (20_memory.md rule R54). -/
def State.memRead2 (s : State) (off : Word) : Half :=
  s.img (off + 1#32) ++ s.img off

/-- `MemRead(off, 4)`, little-endian (20_memory.md rule R54). -/
def State.memRead4 (s : State) (off : Word) : Word :=
  s.img (off + 3#32) ++ s.img (off + 2#32) ++ s.img (off + 1#32) ++ s.img off

/-! ## Errors (60_exceptions.md rules R201 and R203) -/

abbrev Err.precond : BitVec 3 := 1#3
abbrev Err.transport : BitVec 3 := 2#3
abbrev Err.rejected : BitVec 3 := 3#3
abbrev Err.integrity : BitVec 3 := 4#3

/-- `raise Error(code, off, info)`: the one exception entry of the block (R203). -/
def State.raiseError (s : State) (code : BitVec 3) (off info : Word) : State :=
  { s with
    errcode := code
    errstate := s.state
    errOffset := off
    errInfo := info
    phase := .issue
    state := Code.error }

/-! ## Reset and the clear of a new session -/

/-- A cycle with `rst = 1` (R220, R46, R222): every element of R20 takes its reset value. What is
outside the block stays; an exchange that was outstanding leaves the transport mid-word, and may still
be completed once. -/
def State.resetBlock (s : State) : State :=
  { State.reset with
    image := s.image
    pins := s.pins
    rdata := s.rdata
    cut := s.cut || s.phase ≠ .issue
    request := if s.phase = .issue then s.request else .outstanding
    script := s.script
    loop := s.loop
    cfg := s.cfg }

/-- What an accepted START clears (R171): every session and error register, not LEN and not TXW. -/
def State.clearSession (s : State) : State :=
  { s with
    pollhit := false
    padlen := 0#32
    cursor := 0#32
    seed := 0#32
    crc := 0#16
    crca := 0#8
    crcb := 0#8
    errcode := 0#3
    errstate := 0#5
    errOffset := 0#32
    errInfo := 0#32
    peerCrc := 0#16
    crcMatch := false
    delay := 0#32
    phase := .issue
    state := Code.idle }

/-! ## The exchange step (40_datapath_units.md rules R118 and R119) -/

/-- The ISSUE action (R118): the pre-actions, then the frame computed after them is latched. -/
def State.issueFrame (pre : State → State) (frame : State → Word) (s : State) : State :=
  { pre s with txw := frame (pre s), phase := .req }

/-- The completion (R119): PHASE returns to ISSUE; a failure raises TRANSPORT at CURSOR and the
response is not examined, else the state's completion actions run on the response. -/
def State.completeExchange (complete : Word → State → State) (s : State) : State :=
  if s.pins.rxFail then
    { s with phase := .issue }.raiseError Err.transport s.cursor 0x00000000#32
  else complete s.pins.rxWord { s with phase := .issue }

/-- One cycle of an exchange state (R22, R40, R118, R119): ISSUE acts at once, REQ waits for
`tx_ready`, RSP waits for `rx_valid`. -/
def exchange (pre : State → State) (frame : State → Word) (complete : Word → State → State)
    (s : State) : Result :=
  match s.phase with
  | .issue => .next (s.issueFrame pre frame)
  | .req => .next (if s.pins.txReady then { s with phase := .rsp } else s)
  | .rsp => .next (if s.pins.rxValid then s.completeExchange complete else s)

/-- The completion of a state that ignores its response (R82) and only moves on. -/
def State.goto (code : BitVec 5) (_r : Word) (s : State) : State := { s with state := code }

/-! ## The delay (60_exceptions.md rule R211) -/

/-- `DELAY_TICKS = ceil(0.010 * F_CLK)` in the 32-bit counter (R10). -/
def delayTicks (cfg : Config) : Word := BitVec.ofNat 32 ((cfg.fClk + 99) / 100)

/-- One F_CLK cycle of a wait state (R131, R162): count down, then leave by POLLHIT. -/
def State.waitStep (ready again : BitVec 5) (s : State) : State :=
  if s.delay ≠ 0#32 then { s with delay := s.delay - 1#32 }
  else { s with state := if s.pollhit then ready else again }

end Sys2Proof.Machine
end

