-- ==== Sys2Proof/Machine/Datapath.lean ====
section
/-!
DEFINITION. The combinational units of 40_datapath_units.md that read no memory: the LCG keystream
generator, the CRC-16 engine, the encryption and the key-exchange arithmetic.
-/

namespace Sys2Proof.Machine

/-- `LcgStep` (R104): `s * 0x6F646573 + 1` modulo 2^32. (The constant stands first: the kernel unfolds
a product by its second factor, and would count down from a constant there.) -/
def lcgStep (s : Word) : Word := 0x6F646573#32 * s + 0x00000001#32

/-- `SeedInit` (R112): `0xFFFF00D1 | (a << 8)` for the unadjusted crcA. -/
def seedInit (a : Byte) : Word := 0xFFFF00D1#32 ||| (a.setWidth 32 <<< 8)

/-- `CrcStep` (R105): one bit of the bit-serial CRC. -/
def crcStep (c : Half) (b : Bool) : Half :=
  let feedback := (c ^^^ (BitVec.ofBool b).setWidth 16).getLsbD 0
  (c >>> 1) ^^^ (if feedback then 0xC37B#16 else 0x0000#16)

/-- The accumulator after the first `n` bits of `w`, least-significant bit first (R106). -/
def crcAfter (c : Half) (w : Word) : Nat → Half
  | 0 => c
  | n + 1 => crcStep (crcAfter c w n) (w.getLsbD n)

/-- `CrcWord` (R106): 32 bit-steps. -/
def crcWord (c : Half) (w : Word) : Half := crcAfter c w 32

/-- `FoldWord` (R116): `0xFFFF0000 | (crcB << 8) | crcA`, with the adjusted crcA. -/
def foldWord (a b : Byte) : Word :=
  0xFFFF0000#32 ||| (b.setWidth 32 <<< 8) ||| a.setWidth 32

/-- `Encrypt` (R108): `seed ^ raw ^ (0xFE000000 - i) ^ 0x43202F2F`. -/
def encrypt (s raw i : Word) : Word := s ^^^ raw ^^^ (0xFE000000#32 - i) ^^^ 0x43202F2F#32

/-- `CrcaAdj` (R114): `(a + 0x0F) mod 256`. -/
def crcaAdj (a : Byte) : Byte := a + 0x0F#8

/-- `KeyAckFrame` (R115): `0x6400 | crcA`. -/
def keyAckFrame (a : Byte) : Word := 0x00006400#32 ||| a.setWidth 32

/-- `PadLen` (R110): `(L + 0xF) & ~0xF`. -/
def padLen (l : Word) : Word := (l + 0x0000000F#32) &&& 0xFFFFFFF0#32

/-- `LenWord` (R111): the source's `(paddedLength - 0x190) / 4` under LEN_WORD_MODE. -/
def lenWord (mode : LenWordMode) (p : Word) : Word :=
  let d := p - 0x190#32
  match mode with
  | .unsigned => d >>> 2
  | .signed => (d >>> 2) ||| (if d.getLsbD 31 then 0xC0000000#32 else 0x00000000#32)

/-- `CrcFrame` (R117): the CRC in the low half, zeros above. -/
def crcFrame (c : Half) : Word := c.setWidth 32

end Sys2Proof.Machine
end

