-- ==== Sys2Proof/Machine/Operands.lean ====
section
/-!
DEFINITION. Where an operation takes its operands from: the fields of a response
(40_datapath_units.md rule R100) and the image at CURSOR (rules R101 to R103).
-/

namespace Sys2Proof.Machine

/-- RX_HI, `r[31:16]` (R77, R100). -/
def rxHi (r : Word) : Half := r.extractLsb' 16 16

/-- RX_TAG, `r[31:24]` (R77, R100). -/
def rxTag (r : Word) : Byte := r.extractLsb' 24 8

/-- RX_PARAM, `r[23:16]` (R77, R100). -/
def rxParam (r : Word) : Byte := r.extractLsb' 16 8

/-- CURSOR[15:0], the echo a payload response must carry (R150). -/
def State.cursorLow (s : State) : Half := s.cursor.setWidth 16

/-- `Pack16LE` (R101). -/
def State.pack16LE (s : State) (off : Word) : Half := s.memRead2 off

/-- `HdrFrame` (R102): the header pair in the low half, zeros above. -/
def State.hdrFrame (s : State) (off : Word) : Word := (s.pack16LE off).setWidth 32

/-- `PayWord` (R103). -/
def State.payWord (s : State) (i : Word) : Word := s.memRead4 i

/-- A CMD frame: the constant of the state in the low half (30_encoding.md rule R71). -/
def cmdFrame (k : Half) (_s : State) : Word := k.setWidth 32

end Sys2Proof.Machine
end

