-- ==== Sys2Proof/Machine/Flags.lean ====
section
/-!
DEFINITION. Every flag the spec computes: BUSY and the status bits (10_state.md rule R27), the
output levels (R40, R42, R43), the code of PHASE (R22), POLLHIT's two tests (R23), CRC_MATCH (R36) and the size check of
START (45_host_commands.md rule R172).
-/

namespace Sys2Proof.Machine

/-- BUSY: STATE is none of IDLE, DONE, ERROR (R27). -/
def State.busy (s : State) : Bool :=
  !(s.state == Code.idle || s.state == Code.done || s.state == Code.error)

/-- `link_en` equals BUSY (R42). -/
def State.linkEn (s : State) : Bool := s.busy

/-- `st_busy` (R43). -/
def State.stBusy (s : State) : Bool := s.busy

/-- `st_done`, STATUS bit 6 (R27, R43). -/
def State.stDone (s : State) : Bool := s.state == Code.done

/-- `st_err`, STATUS bit 7 (R27, R43). -/
def State.stErr (s : State) : Bool := s.state == Code.error

/-- The code of a PHASE (R22), as STATUS shows it. -/
def Phase.bits : Phase → BitVec 2
  | .issue => 0#2
  | .req => 1#2
  | .rsp => 2#2

/-- `tx_valid` is 1 iff PHASE is REQ (R40). -/
def State.txValid (s : State) : Bool := s.phase == .req

/-- `tx_word` is TXW (R40). -/
def State.txWord (s : State) : Word := s.txw

/-- HS_POLL's test: RX_HI is POLL_READY (R23, R130). -/
def hsReady (r : Word) : Bool := rxHi r == 0x7202#16

/-- FIN_POLL's test: RX_HI is FIN_READY (R23, R161). -/
def finReady (r : Word) : Bool := rxHi r == 0x0075#16

/-- `PreconditionOK` (R172), on all 32 bits. -/
def preconditionOK (l : Word) : Bool := 0xC0#32 ≤ l && l ≤ 0x40000#32

end Sys2Proof.Machine
end

