-- ==== Sys2Proof/Machine/Handshake.lean ====
section
/-!
DEFINITION. The handshake and header phases (41_handshake_header.md rules R130 to R134).
-/

namespace Sys2Proof.Machine

/-- Completion of a poll (R130, R161): record readiness, load the delay, enter the wait state. -/
def State.pollDone (ready : Word → Bool) (wait : BitVec 5) (r : Word) (s : State) : State :=
  { s with pollhit := ready r, delay := delayTicks s.cfg, state := wait }

/-- HS_POLL (R130). -/
def execHsPoll (s : State) : Result :=
  exchange id (cmdFrame 0x6202#16) (State.pollDone hsReady Code.hsWait) s

/-- HS_WAIT (R131). -/
def execHsWait (s : State) : Result :=
  .next (s.waitStep Code.bootreq Code.hsPoll)

/-- BOOTREQ (R132): CURSOR starts at 0. -/
def execBootreq (s : State) : Result :=
  exchange id (cmdFrame 0x6102#16)
    (fun _ s => { s with cursor := 0x00000000#32, state := Code.hdr }) s

/-- Completion of a header frame (R133): step CURSOR by 2; the header ends at 0xC0. -/
def State.hdrDone (_r : Word) (s : State) : State :=
  { s with
    cursor := s.cursor + 2#32
    state := if s.cursor + 2#32 = 0xC0#32 then Code.hdrEnd else Code.hdr }

/-- HDR (R133). -/
def execHdr (s : State) : Result :=
  exchange id (fun s => s.hdrFrame s.cursor) State.hdrDone s

/-- HDR_END (R134). -/
def execHdrEnd (s : State) : Result :=
  exchange id (cmdFrame 0x6200#16) (State.goto Code.keySync) s

end Sys2Proof.Machine
end

