-- ==== Sys2Proof/Machine/Finalization.lean ====
section
/-!
DEFINITION. The finalization phase (44_finalization.md rules R160 to R164).
-/

namespace Sys2Proof.Machine

/-- FIN_START (R160). -/
def execFinStart (s : State) : Result :=
  exchange id (cmdFrame 0x0065#16) (State.goto Code.finPoll) s

/-- FIN_POLL (R161). -/
def execFinPoll (s : State) : Result :=
  exchange id (cmdFrame 0x0065#16) (State.pollDone finReady Code.finWait) s

/-- FIN_WAIT (R162). -/
def execFinWait (s : State) : Result :=
  .next (s.waitStep Code.finReq Code.finPoll)

/-- FIN_REQ (R163). -/
def execFinReq (s : State) : Result :=
  exchange id (cmdFrame 0x0066#16) (State.goto Code.finCrc) s

/-- Completion of FIN_CRC (R164): keep the peer's CRC and whether it matches; a mismatch is no
error. -/
def State.crcDone (r : Word) (s : State) : State :=
  { s with peerCrc := rxHi r, crcMatch := rxHi r == s.crc, state := Code.done }

/-- FIN_CRC (R164). -/
def execFinCrc (s : State) : Result :=
  exchange id (fun s => crcFrame s.crc) State.crcDone s

end Sys2Proof.Machine
end

