-- ==== Sys2Proof/Machine/Window.lean ====
section
/-!
DEFINITION. What a host reads through the register window: the register at each offset
(10_state.md rules R25 to R37).
-/

namespace Sys2Proof.Machine

/-- A field of a register: the value `x` with its bit 0 at bit `lo`. -/
def field {w : Nat} (lo : Nat) (x : BitVec w) : Word := x.setWidth 32 <<< lo

/-- STATUS (R27), field by field; the reserved bits are 0. -/
def State.statusWord (s : State) : Word :=
  field 0 s.state                                         -- [4:0] STATE
    ||| field 5 (BitVec.ofBool s.busy)                    -- [5] BUSY
    ||| field 6 (BitVec.ofBool s.stDone)                  -- [6] DONE
    ||| field 7 (BitVec.ofBool s.stErr)                   -- [7] ERR
    ||| field 8 (if s.stErr then s.errcode else 0#3)      -- [10:8] ERRCODE
    ||| field 11 (BitVec.ofBool (s.stDone && s.crcMatch)) -- [11] CRC_MATCH
    ||| field 12 (BitVec.ofBool s.linkEn)                 -- [12] LINK_EN
    ||| field 16 (if s.stErr then s.errstate else 0#5)    -- [20:16] ERRSTATE
    ||| field 21 s.phase.bits                             -- [22:21] PHASE
    ||| field 23 (BitVec.ofBool s.pollhit)                -- [23] POLLHIT

/-- PARAMS (R33): CRCA in [7:0], CRCB in [15:8]. -/
def State.paramsWord (s : State) : Word := field 0 s.crca ||| field 8 s.crcb

/-- The register at a window offset (R25): CTRL and the reserved offsets read 0 (R26, R37). -/
def State.regAt (s : State) (off : BitVec 6) : Word :=
  match off.toNat with
  | 0x04 => s.statusWord
  | 0x08 => s.len
  | 0x0C => s.padlen
  | 0x10 => s.cursor
  | 0x14 => s.seed
  | 0x18 => s.crc.setWidth 32
  | 0x1C => s.paramsWord
  | 0x20 => s.errOffset
  | 0x24 => s.errInfo
  | 0x28 => s.peerCrc.setWidth 32
  | _ => 0x00000000#32

end Sys2Proof.Machine
end

