-- ==== Sys2Proof/Machine/HostCommands.lean ====
section
/-!
DEFINITION. The quiescent states and the host commands (45_host_commands.md rules R170 to R177).
-/

namespace Sys2Proof.Machine

/-- IDLE (R170): no step of its own. -/
def execIdle (s : State) : Result := .next s

/-- DONE (R175): no step of its own. -/
def execDone (s : State) : Result := .next s

/-- ERROR (R176): no step of its own. -/
def execError (s : State) : Result := .next s

/-- START (R171): ignored while BUSY; else a fresh session, which fails PRECOND at once if LEN is
out of range. -/
def execStart (s : State) : Result :=
  if s.busy then .next s
  else if preconditionOK s.len then .next { s.clearSession with state := Code.hsPoll }
  else .next (s.clearSession.raiseError Err.precond s.clearSession.cursor s.len)

/-- LEN_WRITE (R173): all 32 bits, ignored while BUSY. -/
def execLenWrite (v : Word) (s : State) : Result :=
  .next (if s.busy then s else { s with len := v })

/-- REG_READ (R174): the register at the offset is returned and nothing else changes; an offset
that is not a multiple of 4 has no meaning (10_state.md rule R38). -/
def execRegRead (off : BitVec 6) (s : State) : Result :=
  if Instr.wf (.regRead off) then .next { s with rdata := s.regAt off }
  else .refused (.misaligned (off.setWidth 32))

end Sys2Proof.Machine
end

