-- ==== Sys2Proof/Machine/KeyExchange.lean ====
section
/-!
DEFINITION. The key and parameter exchange phase (42_key_exchange.md rules R140 to R144).
-/

namespace Sys2Proof.Machine

/-- KEY_SYNC (R140). -/
def execKeySync (s : State) : Result :=
  exchange id (cmdFrame 0x6202#16) (State.goto Code.keyReq1) s

/-- KEY_REQ1 (R141). -/
def execKeyReq1 (s : State) : Result :=
  exchange id (cmdFrame 0x63D1#16) (State.goto Code.keyReq2) s

/-- Completion of KEY_REQ2 (R142): a tag other than 0x73 is a rejection; else the seed comes from
the crcA received and CRCA holds the adjusted one. -/
def State.tokenDone (r : Word) (s : State) : State :=
  if rxTag r ≠ 0x73#8 then s.raiseError Err.rejected s.cursor r
  else
    { s with
      seed := seedInit (rxParam r)
      crca := crcaAdj (rxParam r)
      state := Code.keyAck }

/-- KEY_REQ2 (R142). -/
def execKeyReq2 (s : State) : Result :=
  exchange id (cmdFrame 0x63D1#16) State.tokenDone s

/-- KEY_ACK (R143): the padded length is computed after the exchange. -/
def execKeyAck (s : State) : Result :=
  exchange id (fun s => keyAckFrame s.crca)
    (fun _ s => { s with padlen := padLen s.len, state := Code.len }) s

/-- Completion of LEN (R144): take crcB, initialise the CRC, enter the payload loop if it is not
empty. -/
def State.lenDone (r : Word) (s : State) : State :=
  { s with
    crcb := rxParam r
    crc := 0xC387#16
    state := if s.cursor < s.padlen then Code.pay else Code.fold }

/-- LEN (R144). -/
def execLen (s : State) : Result :=
  exchange id (fun s => lenWord s.cfg.lenWordMode s.padlen) State.lenDone s

end Sys2Proof.Machine
end

