-- ==== Sys2Proof/Machine/Payload.lean ====
section
/-!
DEFINITION. The payload phase and the CRC fold (43_payload.md rules R150 to R153).
-/

namespace Sys2Proof.Machine

/-- PAY's pre-actions (R150): the CRC over the raw word, then the keystream step. They stay when
the exchange fails. -/
def State.payPre (s : State) : State :=
  { s with crc := crcWord s.crc (s.payWord s.cursor), seed := lcgStep s.seed }

/-- PAY's frame (R150): the raw word encrypted with the advanced seed. -/
def State.payFrame (s : State) : Word := encrypt s.seed (s.payWord s.cursor) s.cursor

/-- Completion of PAY (R150): the echo must be the offset's low half, else INTEGRITY; then CURSOR
steps by 4 and the loop ends at PADLEN. -/
def State.payDone (r : Word) (s : State) : State :=
  if rxHi r ≠ s.cursorLow then s.raiseError Err.integrity s.cursor r
  else
    { s with
      cursor := s.cursor + 4#32
      state := if s.cursor + 4#32 < s.padlen then Code.pay else Code.fold }

/-- PAY (R150). -/
def execPay (s : State) : Result :=
  exchange State.payPre State.payFrame State.payDone s

/-- FOLD (R152): one internal step, no exchange. -/
def execFold (s : State) : Result :=
  .next { s with crc := crcWord s.crc (foldWord s.crca s.crcb), state := Code.finStart }

end Sys2Proof.Machine
end

