-- ==== Sys2Proof/Machine/Dispatch.lean ====
section
/-!
DEFINITION. The dispatch: one arm per operation of the opcode table, each a direct call of its
meaning.
-/

namespace Sys2Proof.Machine

def exec (i : Instr) (s : State) : Host.Outcome State Fault Refusal :=
  match i with
  | .idle => Sys2Proof.Machine.execIdle s
  | .hsPoll => Sys2Proof.Machine.execHsPoll s
  | .hsWait => Sys2Proof.Machine.execHsWait s
  | .bootreq => Sys2Proof.Machine.execBootreq s
  | .hdr => Sys2Proof.Machine.execHdr s
  | .hdrEnd => Sys2Proof.Machine.execHdrEnd s
  | .keySync => Sys2Proof.Machine.execKeySync s
  | .keyReq1 => Sys2Proof.Machine.execKeyReq1 s
  | .keyReq2 => Sys2Proof.Machine.execKeyReq2 s
  | .keyAck => Sys2Proof.Machine.execKeyAck s
  | .len => Sys2Proof.Machine.execLen s
  | .pay => Sys2Proof.Machine.execPay s
  | .fold => Sys2Proof.Machine.execFold s
  | .finStart => Sys2Proof.Machine.execFinStart s
  | .finPoll => Sys2Proof.Machine.execFinPoll s
  | .finWait => Sys2Proof.Machine.execFinWait s
  | .finReq => Sys2Proof.Machine.execFinReq s
  | .finCrc => Sys2Proof.Machine.execFinCrc s
  | .done => Sys2Proof.Machine.execDone s
  | .error => Sys2Proof.Machine.execError s
  | .start => Sys2Proof.Machine.execStart s
  | .lenWrite v => Sys2Proof.Machine.execLenWrite v s
  | .regRead off => Sys2Proof.Machine.execRegRead off s

end Sys2Proof.Machine
end

