-- ==== Sys2Proof/Machine/Cycle.lean ====
section
/-!
DEFINITION. One atomic transition (20_memory.md rule R64): which agent moves, what the block is
asked to do by it, and the duties of the host (60_exceptions.md rule R216) whose breach has no
meaning (93_implementation_defined.md §3).
-/

namespace Sys2Proof.Machine

/-- What selects the block's next own step: the STATE register (R21, R79). -/
def State.fetch (s : State) : OpWord := .state s.state

/-- What a word that is no operation of the block does: an ignored write changes nothing (R26, R37);
an access outside the window faults; the rest has no meaning and is refused (R38, R81). -/
def rejected (r : Reject) (s : State) : Result :=
  match r with
  | .ignoredWrite _ => .next s
  | .outsideWindow off => .fault (.outsideWindow off)
  | .accessSize n => .refused (.accessSize n)
  | .misaligned off => .refused (.misaligned off)
  | .reservedState code => .refused (.reservedState code)

/-- Decode a selecting word and run the operation. -/
def runWord (w : OpWord) (s : State) : Result :=
  match decode w with
  | .ok i => exec i s
  | .error r => rejected r s

/-- Whether pins complete a request that was already completed: the transport completes each accepted
request exactly once (R216, R226). A completion that no request asked for is none of these; the block
ignores it (R40). -/
def State.completesTwice (p : Pins) (s : State) : Bool := p.rxValid && s.request == .answered

/-- The transport's account after a cycle with the pins at `p`: a request is accepted while `tx_valid`
and `tx_ready` are 1, and completed by the next `rx_valid` (R40, R226). -/
def State.nextRequest (p : Pins) (s : State) : Request :=
  if s.txValid && p.txReady then .outstanding
  else if p.rxValid && s.request == .outstanding then .answered
  else s.request

/-- The block takes one F_CLK cycle of its own with the transport's pins at `p` (R40). -/
def blockCycle (p : Pins) (s : State) : Result :=
  if s.completesTwice p then .refused .secondCompletion
  else runWord s.fetch { s with pins := p, request := s.nextRequest p }

/-- Whether an access is a START that would begin a session while the transport is still mid-word
from a reset that cut an exchange: the host had to reset or drain it first (R222, R216). -/
def State.breaksDrainDuty (s : State) (a : Access) : Bool :=
  s.cut && !s.busy && preconditionOK s.len &&
    (match decode (.access a) with
     | .ok .start => true
     | _ => false)

/-- A host access to the register window (R25, R38, R83). -/
def hostAccess (a : Access) (s : State) : Result :=
  if s.breaksDrainDuty a then .refused .startBeforeDrain
  else runWord (.access a) s

/-- A host write to the image space: allowed while not BUSY, and at offsets `>= LEN` always, since
those are no bytes of the image; a write below LEN during a session has no meaning (R60, R216). -/
def hostImageWrite (off : Nat) (b : Byte) (s : State) : Result :=
  if imageSize ≤ off then .fault (.outsideImage off)
  else if s.busy && off < s.len.toNat then .refused (.imageWriteWhileBusy off)
  else .next { s with image := Memory.write s.image off b }

/-- The host changes the link configuration: outside the block, and forbidden during a session
(R224). -/
def hostRelink (s : State) : Result :=
  if s.busy then .refused .relinkWhileBusy else .next s

/-- One agent's move, taken from a state whose script no longer holds it. -/
def applyInput (m : Input) (s : State) : Result :=
  match m with
  | .clock p => blockCycle p s
  | .host a => hostAccess a s
  | .image off b => hostImageWrite off b s
  | .rst => .next s.resetBlock
  | .drain => .next { s with cut := false }
  | .relink => hostRelink s

/-- The agents' coming moves: the script, and after it the loop, which begins anew each time it ends
(R216: a poll that is never answered ready is a run without end). -/
def State.moves (s : State) : List Input :=
  match s.script with
  | [] => s.loop
  | m :: rest => m :: rest

/-- The next transition: the first of the agents' moves, or, when they make none, a block cycle in which
they are quiet (log 1). -/
def nextTransition (s : State) : Result :=
  match s.moves with
  | [] => blockCycle Pins.quiet s
  | m :: rest => applyInput m { s with script := rest }

/-- `s` with the selecting word `w` placed where the next transition takes it from: a STATE code in
STATE with a block cycle scripted first, a host access as the script's first move. The duties that
could refuse that transition count as met (log 1). -/
def State.place (s : State) (w : OpWord) : State :=
  match w with
  | .state code =>
    { s with
      state := code, script := .clock s.pins :: s.script
      request := if s.completesTwice s.pins then .outstanding else s.request }
  | .access a => { s with script := .host a :: s.script, cut := false }

end Sys2Proof.Machine
end

