-- ==== Sys2Proof/Machine/Step.lean ====
section
/-!
DEFINITION. The step of the machine: one atomic transition (20_memory.md rule R64).
-/

namespace Sys2Proof.Machine

/-- One atomic transition of the block and the agents around it. -/
def step (s : State) : Host.Outcome State Fault Refusal := nextTransition s

/-- `s` with the operation that a number of the opcode table stands for placed where the next step
takes it from. -/
def State.withFetchWord (s : State) (nbits w : Nat) : State := s.place (tableWord nbits w)

end Sys2Proof.Machine
end

