-- ==== Sys2Proof/Machine/Trace.lean ====
section
/-!
DEFINITION. The trace of a run (30_encoding.md rule R84): the events the next transition of a state
causes, one line each. No step reads them.
-/

namespace Sys2Proof.Machine

/-- One line of a trace (R84). -/
inductive Event where
  /-- A frame sent: the transport accepts it. -/
  | tx (frame : Word)
  /-- Its response. -/
  | rx (response : Word)
  /-- A failed exchange. -/
  | rxFail
  /-- One completed delay. -/
  | wait
  /-- The internal fold step. -/
  | fold
  /-- A host register write. -/
  | write (offset data : Word)
  /-- A host register read and the value it returned. -/
  | read (offset value : Word)
deriving DecidableEq, Repr

/-- The fourteen exchange states (10_state.md rule R22). -/
def isExchange : Instr → Bool
  | .hsPoll | .bootreq | .hdr | .hdrEnd | .keySync | .keyReq1 | .keyReq2 | .keyAck | .len | .pay
  | .finStart | .finPoll | .finReq | .finCrc => true
  | .idle | .hsWait | .fold | .finWait | .done | .error | .start | .lenWrite _ | .regRead _ => false

/-- The events of a block cycle with the pins at `p`. -/
def State.cycleEvents (p : Pins) (s : State) : List Event :=
  if s.completesTwice p then []
  else match decodeState s.state with
  | .error _ => []
  | .ok i =>
    if isExchange i then
      if s.phase = .req ∧ p.txReady then [.tx s.txw]
      else if s.phase = .rsp ∧ p.rxValid then
        [if p.rxFail then .rxFail else .rx p.rxWord]
      else []
    else if i = .fold then [.fold]
    else if (i = .hsWait ∨ i = .finWait) ∧ s.delay = 0#32 then [.wait]
    else []

/-- The event of a host access, for one that has a meaning. -/
def State.accessEvents (a : Access) (s : State) : List Event :=
  if s.breaksDrainDuty a then []
  else match decode (.access a) with
    | .ok (.regRead off) => [.read a.offset (s.regAt off)]
    | .ok _ => [.write a.offset a.data]
    | .error (.ignoredWrite _) => [.write a.offset a.data]
    | .error _ => []

/-- The events of the next transition. -/
def State.events (s : State) : List Event :=
  match s.moves with
  | [] => s.cycleEvents Pins.quiet
  | .clock p :: _ => s.cycleEvents p
  | .host a :: _ => s.accessEvents a
  | _ :: _ => []

/-- The trace of `n` transitions, ending early where the machine stops. -/
def trace : Nat → State → List Event
  | 0, _ => []
  | n + 1, s =>
    s.events ++ (match nextTransition s with
      | .next t => trace n t
      | _ => [])

/-- The frames of a trace, in order. -/
def frames : List Event → List Word
  | [] => []
  | .tx w :: es => w :: frames es
  | _ :: es => frames es

/-- A 4-bit digit of a trace line. -/
def hexDigit (d : BitVec 4) : Char :=
  if d.toNat < 10 then Char.ofNat (48 + d.toNat) else Char.ofNat (55 + d.toNat)

/-- A word as eight hexadecimal digits (R84). -/
def hex8 (w : Word) : String :=
  String.ofList ([28, 24, 20, 16, 12, 8, 4, 0].map fun k => hexDigit (w.extractLsb' k 4))

/-- A window offset as two hexadecimal digits (R84). -/
def hexOffset (w : Word) : String :=
  String.ofList ([4, 0].map fun k => hexDigit (w.extractLsb' k 4))

/-- The text of a trace line (R84). -/
def Event.line : Event → String
  | .tx w => "TX " ++ hex8 w
  | .rx w => "RX " ++ hex8 w
  | .rxFail => "RXFAIL"
  | .wait => "WAIT"
  | .fold => "FOLD"
  | .write off v => "W " ++ hexOffset off ++ " " ++ hex8 v
  | .read off v => "R " ++ hexOffset off ++ " -> " ++ hex8 v

end Sys2Proof.Machine
end

