-- ==== Sys2Proof/Safety.lean ====
section
/-!
DEFINITION. The terms claims are made in: the registers and who may write them, the invariant of a
session, what the agents do in a run, and the spec's own arithmetic written beside the model's.
-/

namespace Sys2Proof.Safety

open Sys2Proof.Machine

/-! ## Registers and who writes them -/

/-- The eighteen elements of the block's state (10_state.md rule R20). -/
inductive Reg where
  | state | phase | pollhit | delay | txw | len | padlen | cursor | seed | crc | crca | crcb
  | errcode | errstate | errOffset | errInfo | peerCrc | crcMatch
deriving DecidableEq, Repr

/-- The value of a register, zero-extended. -/
def Reg.get (s : State) : Reg → Word
  | .state => s.state.setWidth 32
  | .phase => s.phase.bits.setWidth 32
  | .pollhit => (BitVec.ofBool s.pollhit).setWidth 32
  | .delay => s.delay
  | .txw => s.txw
  | .len => s.len
  | .padlen => s.padlen
  | .cursor => s.cursor
  | .seed => s.seed
  | .crc => s.crc.setWidth 32
  | .crca => s.crca.setWidth 32
  | .crcb => s.crcb.setWidth 32
  | .errcode => s.errcode.setWidth 32
  | .errstate => s.errstate.setWidth 32
  | .errOffset => s.errOffset
  | .errInfo => s.errInfo
  | .peerCrc => s.peerCrc.setWidth 32
  | .crcMatch => (BitVec.ofBool s.crcMatch).setWidth 32

/-- What every exchange state may write: its frame, PHASE, STATE and, on a failure, the error
registers (R118, R119, R203). -/
def exchangeRegs : List Reg :=
  [.txw, .phase, .state, .errcode, .errstate, .errOffset, .errInfo]

/-- The registers an operation may write: the "State written" line of its rule. -/
def writes : Instr → List Reg
  | .idle | .done | .error | .regRead _ => []
  | .hsPoll | .finPoll => exchangeRegs ++ [.pollhit, .delay]
  | .hsWait | .finWait => [.delay, .state]
  | .bootreq | .hdr => exchangeRegs ++ [.cursor]
  | .hdrEnd | .keySync | .keyReq1 | .finStart | .finReq => exchangeRegs
  | .keyReq2 => exchangeRegs ++ [.seed, .crca]
  | .keyAck => exchangeRegs ++ [.padlen]
  | .len => exchangeRegs ++ [.crcb, .crc]
  | .pay => exchangeRegs ++ [.crc, .seed, .cursor]
  | .fold => [.crc, .state]
  | .finCrc => exchangeRegs ++ [.peerCrc, .crcMatch]
  | .start =>
    [.pollhit, .padlen, .cursor, .seed, .crc, .crca, .crcb, .errcode, .errstate, .errOffset,
      .errInfo, .peerCrc, .crcMatch, .delay, .phase, .state]
  | .lenWrite _ => [.len]

/-! ## One exchange operation, phase by phase -/

/-- What an exchange operation answers in every state (R22, R40, R118, R119, R203): `issue` is its
ISSUE action less the PHASE change, `complete r` its completion actions on the response `r`. -/
def ExchangeStep (i : Instr) (issue : State → State) (complete : Word → State → State) : Prop :=
  ∀ s : State,
    (s.phase = .issue → exec i s = .next { issue s with phase := .req }) ∧
    (s.phase = .req → s.pins.txReady = true → exec i s = .next { s with phase := .rsp }) ∧
    (s.phase = .req → s.pins.txReady = false → exec i s = .next s) ∧
    (s.phase = .rsp → s.pins.rxValid = false → exec i s = .next s) ∧
    (s.phase = .rsp → s.pins.rxValid = true → s.pins.rxFail = true →
      exec i s = .next
        { s with
          phase := .issue, errcode := 2#3, errstate := s.state, errOffset := s.cursor
          errInfo := 0#32, state := 19#5 }) ∧
    (s.phase = .rsp → s.pins.rxValid = true → s.pins.rxFail = false →
      exec i s = .next (complete s.pins.rxWord { s with phase := .issue }))

/-! ## The spec's arithmetic, written as its sources write it -/

/-- The bit loop of 40_datapath_units.md rules R105 and R106: for each bit of `w` from bit 0 up,
`feedback = (c ^ bit) & 1`, then `c = (c >> 1) ^ (feedback ? 0xC37B : 0)`. -/
def crcLoop (c : Half) (w : Word) : Half :=
  (List.range 32).foldl
    (fun c n =>
      if (c.toNat ^^^ (w.toNat >>> n)) % 2 = 1 then (c >>> 1) ^^^ 0xC37B#16 else c >>> 1)
    c

/-- One entry of the 256-entry table of a byte-at-a-time CRC: eight zero-input steps from the
byte. -/
def crcTable (x : Byte) : Half := crcAfter (x.setWidth 16) 0#32 8

/-- One byte of a table-driven CRC. -/
def crcByte (c : Half) (x : Byte) : Half := (c >>> 8) ^^^ crcTable (c.setWidth 8 ^^^ x)

/-- The table-driven CRC of a word, low byte first (the replacement R107 speaks of). -/
def crcByTable (c : Half) (w : Word) : Half :=
  crcByte (crcByte (crcByte (crcByte c (w.extractLsb' 0 8)) (w.extractLsb' 8 8))
    (w.extractLsb' 16 8)) (w.extractLsb' 24 8)

/-- The value of little-endian bytes, first byte lowest (20_memory.md rule R54). -/
def littleEndian : List Byte → Nat
  | [] => 0
  | b :: bs => b.toNat + 256 * littleEndian bs

/-! ## The invariant of the block -/

/-- STATE is one of the fourteen exchange states (10_state.md rule R22). -/
def exchangeState (c : BitVec 5) : Bool :=
  c == 1#5 || c == 3#5 || (4#5 ≤ c && c ≤ 11#5) || c == 13#5 || c == 14#5 || c == 16#5 ||
    c == 17#5

/-- STATE codes never held (30_encoding.md rule R81), and PHASE outside the exchange states (10_state.md
rule R22). -/
structure CodesLegal (s : State) : Prop where
  state : s.state.toNat < 20
  phaseQuiet : exchangeState s.state = false → s.phase = .issue

/-- Where CURSOR and PADLEN stand in each state (10_state.md rules R29 and R30; 43_payload.md rule
R151). -/
structure CursorPlaced (s : State) : Prop where
  lenOK : s.busy = true → 0xC0 ≤ s.len.toNat ∧ s.len.toNat ≤ 0x40000
  before : 1 ≤ s.state.toNat → s.state.toNat ≤ 3 → s.cursor = 0#32
  header : s.state = 4#5 → s.cursor.toNat % 2 = 0 ∧ s.cursor.toNat < 0xC0
  after : 5 ≤ s.state.toNat → s.state.toNat ≤ 10 → s.cursor = 0xC0#32
  payload : s.state = 11#5 →
    s.cursor.toNat % 4 = 0 ∧ 0xC0 ≤ s.cursor.toNat ∧ s.cursor.toNat < s.padlen.toNat
  ended : 12 ≤ s.state.toNat → s.state.toNat ≤ 18 → s.cursor = s.padlen
  padEarly : s.state.toNat ≤ 9 → s.busy = true → s.padlen = 0#32
  padSet : 10 ≤ s.state.toNat → s.state.toNat ≤ 17 → s.padlen = (s.len + 15#32) &&& ~~~15#32
  padDone : s.state = 18#5 →
    s.padlen.toNat % 16 = 0 ∧ 0xC0 ≤ s.padlen.toNat ∧ s.padlen.toNat ≤ 0x40000

/-- What the session registers hold before the FSM has written them, SEED until the first payload
step (10_state.md rules R33 and R46), and DELAY (R24). -/
structure SessionFresh (s : State) : Prop where
  seedEarly : s.busy = true → s.state.toNat ≤ 8 → s.seed = 0#32 ∧ s.crca = 0#8
  seedToken : s.state = 9#5 ∨ s.state = 10#5 →
    s.seed = 0xFFFF#16 ++ (s.crca - 0x0F#8) ++ 0xD1#8
  crcEarly : s.busy = true → s.state.toNat ≤ 10 → s.crc = 0#16 ∧ s.crcb = 0#8
  peerEarly : s.state ≠ 18#5 → s.peerCrc = 0#16 ∧ s.crcMatch = false
  peerDone : s.state = 18#5 → s.crcMatch = (s.peerCrc == s.crc)
  delayOnlyInWait : s.state ≠ 2#5 → s.state ≠ 15#5 → s.delay = 0#32
  delayBounded : s.delay.toNat ≤ (delayTicks s.cfg).toNat

/-- What the error registers hold: nothing outside ERROR, and in ERROR one of the four causes of
60_exceptions.md rule R201. -/
structure ErrorRecorded (s : State) : Prop where
  none : s.state ≠ 19#5 →
    s.errcode = 0#3 ∧ s.errstate = 0#5 ∧ s.errOffset = 0#32 ∧ s.errInfo = 0#32
  cause : s.state = 19#5 →
    (s.errcode = 1#3 ∧ s.errstate = 0#5 ∧ s.errOffset = 0#32 ∧
      ¬ (0xC0 ≤ s.errInfo.toNat ∧ s.errInfo.toNat ≤ 0x40000)) ∨
    (s.errcode = 2#3 ∧ exchangeState s.errstate = true ∧ s.errOffset = s.cursor ∧
      s.errInfo = 0#32) ∨
    (s.errcode = 3#3 ∧ s.errstate = 8#5 ∧ s.errOffset = 0xC0#32 ∧
      s.errInfo.extractLsb' 24 8 ≠ 0x73#8) ∨
    (s.errcode = 4#3 ∧ s.errstate = 11#5 ∧ s.errOffset = s.cursor ∧
      s.errInfo.extractLsb' 16 16 ≠ s.errOffset.setWidth 16)

/-- The invariant of the machine. In PHASE RSP one request is outstanding (10_state.md rule R44). -/
structure Inv (s : State) : Prop where
  codes : CodesLegal s
  cursor : CursorPlaced s
  fresh : SessionFresh s
  errors : ErrorRecorded s
  pending : s.phase = .rsp → s.request = .outstanding
  image : Memory.wf s.image

/-! ## What the agents do in a run -/

/-- The moves hold no reset. -/
def noReset (l : List Input) : Prop := Input.rst ∉ l

/-- The pins of a cycle in which the transport accepts the offered frame. -/
def accept : Pins := { Pins.quiet with txReady := true }

/-- The pins of a cycle in which the transport completes the exchange with `r`. -/
def answer (r : Word) : Pins := { Pins.quiet with rxValid := true, rxWord := r }

/-- One exchange as the transport plays it: how many cycles it lets pass before it accepts the
frame and before it completes, and the response. -/
structure Reply where
  waitAccept : Nat
  waitAnswer : Nat
  word : Word

/-- The cycles of one exchange: the ISSUE cycle, the wait, the acceptance, the wait, the
completion. -/
def Reply.cycles (r : Reply) : List Input :=
  .clock Pins.quiet :: List.replicate r.waitAccept (.clock Pins.quiet) ++
    .clock accept :: List.replicate r.waitAnswer (.clock Pins.quiet) ++ [.clock (answer r.word)]

/-- The cycles of a sequence of exchanges. -/
def cyclesOf (rs : List Reply) : List Input := rs.flatMap Reply.cycles

/-- `n` cycles with a quiet transport. -/
def quietCycles (n : Nat) : List Input := List.replicate n (.clock Pins.quiet)

/-- The cycles of a poll loop under a clock with `d` DELAY_TICKS: each poll exchange is followed by
the delay and the cycle that leaves it. -/
def pollCycles (d : Nat) (rs : List Reply) : List Input :=
  rs.flatMap fun r => r.cycles ++ quietCycles (d + 1)

/-- The keystream state after `n` steps from `s` (R104). -/
def seedAfter (s : Word) : Nat → Word
  | 0 => s
  | n + 1 => 0x6F646573#32 * seedAfter s n + 1#32

/-- The byte offset of payload word `k` (R151). -/
def payOffset (k : Nat) : Word := BitVec.ofNat 32 (0xC0 + 4 * k)

/-- The accumulator after payload words `0 .. n-1` of the image of `s`, from `c` (R150). -/
def payCrc (s : State) (c : Half) : Nat → Half
  | 0 => c
  | n + 1 => crcLoop (payCrc s c n) (s.payWord (payOffset n))

/-- The frame of payload word `k` for the keystream that starts at `seed` (R108, R150). -/
def payFrameAt (s : State) (seed : Word) (k : Nat) : Word :=
  seedAfter seed (k + 1) ^^^ s.payWord (payOffset k) ^^^ (0xFE000000#32 - payOffset k) ^^^
    0x43202F2F#32

/-- The header frame `k` (R72). -/
def hdrFrameAt (s : State) (k : Nat) : Word :=
  0#16 ++ s.img (BitVec.ofNat 32 (2 * k + 1)) ++ s.img (BitVec.ofNat 32 (2 * k))

/-- What the peer does in one whole session: the replies to every exchange of 30_encoding.md rule
R85, in order. -/
structure Peer where
  hsRetry : List Reply
  hsReady : Reply
  boot : Reply
  header : List Reply
  headerEnd : Reply
  keySync : Reply
  keyReq : Reply
  token : Reply
  ack : Reply
  length : Reply
  payload : List Reply
  finStart : Reply
  finRetry : List Reply
  finReady : Reply
  finReq : Reply
  finCrc : Reply

/-- The padded length of a session that starts with the length of `s` (R110). -/
def padOf (s : State) : Word := (s.len + 15#32) &&& ~~~15#32

/-- The number of payload words of a session that starts with the length of `s` (R151). -/
def payWords (s : State) : Nat := ((padOf s).toNat - 0xC0) / 4

/-- The answers a successful session needs (30_encoding.md rule R78): the polls become ready, the
token carries the tag, every payload word is echoed. All else is free. -/
structure Peer.Cooperates (p : Peer) (s : State) : Prop where
  hsRetry : ∀ r ∈ p.hsRetry, r.word.extractLsb' 16 16 ≠ 0x7202#16
  hsReady : p.hsReady.word.extractLsb' 16 16 = 0x7202#16
  header : p.header.length = 96
  token : p.token.word.extractLsb' 24 8 = 0x73#8
  payload : p.payload.length = payWords s
  echo : ∀ k (h : k < p.payload.length),
    p.payload[k].word.extractLsb' 16 16 = (payOffset k).setWidth 16
  finRetry : ∀ r ∈ p.finRetry, r.word.extractLsb' 16 16 ≠ 0x0075#16
  finReady : p.finReady.word.extractLsb' 16 16 = 0x0075#16

/-- The agents' moves of a whole session under a clock with `d` DELAY_TICKS: the host's START, then
time and the transport; the single cycle between the payload and the finalization is FOLD's. -/
def Peer.script (p : Peer) (d : Nat) : List Input :=
  .host { write := true, size := 4, offset := 0#32, data := 1#32 } ::
    (pollCycles d (p.hsRetry ++ [p.hsReady]) ++
      cyclesOf (p.boot :: p.header ++
        [p.headerEnd, p.keySync, p.keyReq, p.token, p.ack, p.length] ++ p.payload) ++
      quietCycles 1 ++
      cyclesOf [p.finStart] ++
      pollCycles d (p.finRetry ++ [p.finReady]) ++
      cyclesOf [p.finReq, p.finCrc])

/-- crcA as the token carries it (R142). -/
def Peer.crcA (p : Peer) : Byte := p.token.word.extractLsb' 16 8

/-- crcA after its adjustment (R142). -/
def Peer.crcAdj (p : Peer) : Byte := p.crcA + 0x0F#8

/-- crcB (R144). -/
def Peer.crcB (p : Peer) : Byte := p.length.word.extractLsb' 16 8

/-- The seed the token gives (R112). -/
def Peer.seed (p : Peer) : Word := 0xFFFF#16 ++ p.crcA ++ 0xD1#8

/-- The CRC a session of `s` ends with (R150, R152). -/
def Peer.finalCrc (p : Peer) (s : State) : Half :=
  crcLoop (payCrc s 0xC387#16 (payWords s)) (0xFFFF#16 ++ p.crcB ++ p.crcAdj)

/-- The frame sequence of 30_encoding.md rule R85. -/
def Peer.frames (p : Peer) (s : State) : List Word :=
  List.replicate (p.hsRetry.length + 1) 0x00006202#32 ++ [0x00006102#32] ++
    (List.range 96).map (hdrFrameAt s) ++
    [0x00006200#32, 0x00006202#32, 0x000063D1#32, 0x000063D1#32,
      0x0000#16 ++ 0x64#8 ++ p.crcAdj, lenWord s.cfg.lenWordMode (padOf s)] ++
    (List.range (payWords s)).map (payFrameAt s p.seed) ++
    List.replicate (p.finRetry.length + 2) 0x00000065#32 ++
    [0x00000066#32, 0x0000#16 ++ p.finalCrc s]

/-- Apply a function to the state of a next outcome. -/
def mapNext (f : State → State) : Result → Result
  | .next t => .next (f t)
  | .fault r => .fault r
  | .refused r => .refused r

/-- `s` with another response word on the transport's pins. -/
def withWord (r : Word) (s : State) : State := { s with pins := { s.pins with rxWord := r } }

/-- TX and completion events of a trace alternate, where `pending` says whether a TX still awaits its
completion (R62, R84). -/
def alternate : Bool → List Event → Prop
  | _, [] => True
  | pending, .tx _ :: es => pending = false ∧ alternate true es
  | pending, .rx _ :: es => pending = true ∧ alternate false es
  | pending, .rxFail :: es => pending = true ∧ alternate false es
  | pending, .wait :: es => alternate pending es
  | pending, .fold :: es => alternate pending es
  | pending, .write _ _ :: es => alternate pending es
  | pending, .read _ _ :: es => alternate pending es

end Sys2Proof.Safety
end

