-- ==== Sys2Proof/Certificates/Slice0/Obligations.lean ====
section
/-!
DEFINITION. The statements about the block, each from the rules of spec/ that its docstring names.
Register values and frames are written with the spec's own numbers. No operation of the block
stores to memory, so a frame says that every image byte is unchanged.
-/

open Sys2Proof Sys2Proof.Machine Sys2Proof.Safety

/-! ## Selecting an operation -/

/-- Every well-formed operation is read back from its own selecting word, with every operand value
(30_encoding.md rules R79 and R83, 45 rule R174). -/
def Obligations.DecodeReadsBackEncode : Prop :=
  ∀ i : Instr, i.wf = true → decode (encode i) = .ok i

/-- What decodes is well-formed and is its own encoding, up to the bits the spec ignores: bits
[31:1] of START's data and the data lines of a read (R79, R83, 10 rules R25 and R38). -/
def Obligations.DecodedWordsAreEncodings : Prop :=
  ∀ (w : OpWord) (i : Instr), decode w = .ok i → i.wf = true ∧
    match w with
    | .state c => encode i = .state c
    | .access a => ∃ b : Access, encode i = .access b ∧ b.write = a.write ∧ b.size = a.size ∧
        b.offset = a.offset ∧ (a.write = true → b.offset = 0x08#32 → b.data = a.data) ∧
        (a.write = true → b.offset = 0x00#32 → b.data = a.data &&& 1#32)

/-- Words written out from the spec's tables decode to the operations they stand for: STATE codes
of each family (10 rule R21) and the commands of each offset (10 rule R25, 30 rule R83). -/
def Obligations.SpecWordsDecode : Prop :=
  decode (.state 0b00001#5) = .ok .hsPoll ∧ decode (.state 0b01000#5) = .ok .keyReq2 ∧
  decode (.state 0b01011#5) = .ok .pay ∧ decode (.state 0b10001#5) = .ok .finCrc ∧
  decode (.state 0b10011#5) = .ok .error ∧
  decode (.access ⟨true, 4, 0x00#32, 0xFFFFFFFF#32⟩) = .ok .start ∧
  decode (.access ⟨true, 4, 0x08#32, 0x000000C4#32⟩) = .ok (.lenWrite 0x000000C4#32) ∧
  decode (.access ⟨false, 4, 0x28#32, 0x00000000#32⟩) = .ok (.regRead 0x28#6)

/-- The reserved codes of STATE and PHASE (30 rule R81). A block cycle in STATE 20 to 31, scripted or
not, is refused, and every code below 20 selects an operation. Code 3 of PHASE is held in no state: the
model's PHASE has three values, and STATUS never shows a fourth. -/
def Obligations.ReservedCodesRefused : Prop :=
  (∀ s : State, 20 ≤ s.state.toNat →
    (s.moves = [] → step s = .refused (.reservedState s.state)) ∧
    (∀ (p : Pins) (rest : List Input), s.moves = .clock p :: rest →
      (p.rxValid = false ∨ s.request ≠ .answered) →
      step s = .refused (.reservedState s.state)) ∧
    (∀ (p : Pins) (rest : List Input), s.moves = .clock p :: rest → ∃ r, step s = .refused r)) ∧
  (∀ c : BitVec 5, c.toNat < 20 → ∃ i, decode (.state c) = .ok i) ∧
  (∀ p : Phase, p.bits ≠ 3#2) ∧
  (∀ s : State, s.statusWord.extractLsb' 21 2 ≠ 3#2)

/-- A step runs the decoded operation. A block cycle samples the transport's pins, brings the account
of its requests up to date and runs the operation that STATE selects; a host access runs its command.
The move is taken off the script; nothing else is done around `exec` (10 rule R21, 20 rule R64, 30
rules R79 and R83). That a state without a move takes a quiet block cycle is the model's choice (log
1), and so are the two things that come first: a second completion of one request is refused (log 8,
`OneCompletionPerRequest`), and so is a START that would begin a session before the drain (log 5,
`StartWaitsForTheDrain`). -/
def Obligations.StepRunsTheDecodedOperation : Prop :=
  (∀ (s : State) (p : Pins) (rest : List Input) (i : Instr), s.moves = .clock p :: rest →
    (p.rxValid = false ∨ s.request ≠ .answered) → decode (.state s.state) = .ok i →
    step s = exec i { s with script := rest, pins := p, request := s.nextRequest p }) ∧
  (∀ (s : State) (i : Instr), s.moves = [] → decode (.state s.state) = .ok i →
    step s = exec i { s with pins := ⟨false, false, 0#32, false⟩ }) ∧
  (∀ (s : State) (a : Access) (rest : List Input) (i : Instr), s.moves = .host a :: rest →
    decode (.access a) = .ok i →
    (i ≠ .start ∨ s.cut = false ∨ s.busy = true ∨
      ¬ (0xC0 ≤ s.len.toNat ∧ s.len.toNat ≤ 0x40000)) →
    step s = exec i { s with script := rest })

/-! ## The register window -/

/-- Reserved offsets and reserved fields read 0, and writes to them and to read-only registers are
ignored (10 rule R37); a CTRL write with bit 0 = 0 has no effect, and CTRL reads 0 (10 rule R26). -/
def Obligations.ReservedAndReadOnlyWindow : Prop :=
  (∀ (s : State) (off : BitVec 6), 0x2C#6 ≤ off → s.regAt off = 0#32) ∧
  (∀ s : State, (s.regAt 0x00#6).extractLsb' 1 31 = 0#31 ∧
    (s.regAt 0x04#6).extractLsb' 13 3 = 0#3 ∧ (s.regAt 0x04#6).extractLsb' 24 8 = 0#8 ∧
    (s.regAt 0x18#6).extractLsb' 16 16 = 0#16 ∧ (s.regAt 0x1C#6).extractLsb' 16 16 = 0#16 ∧
    (s.regAt 0x28#6).extractLsb' 16 16 = 0#16) ∧
  (∀ (s : State) (off v : Word) (rest : List Input),
    s.moves = .host ⟨true, 4, off, v⟩ :: rest → off.toNat % 4 = 0 → off.toNat < 0x40 →
    off ≠ 0x00#32 → off ≠ 0x08#32 → step s = .next { s with script := rest }) ∧
  (∀ v : Word, v.getLsbD 0 = true → decode (.access ⟨true, 4, 0x00#32, v⟩) = .ok .start) ∧
  (∀ (s : State) (v : Word) (rest : List Input),
    s.moves = .host ⟨true, 4, 0x00#32, v⟩ :: rest → v.getLsbD 0 = false →
    step s = .next { s with script := rest }) ∧
  (∀ s : State, s.regAt 0x00#6 = 0x00000000#32)

/-- A read at an offset that is no multiple of 4 is refused (10 rule R38), and an access outside the
64-byte window faults (R25; that these stop, and under these names, is the model's choice, log 10). -/
def Obligations.AccessesWithoutMeaningStop : Prop :=
  (∀ (s : State) (off : BitVec 6), off.toNat % 4 ≠ 0 →
    exec (.regRead off) s = .refused (.misaligned (off.setWidth 32))) ∧
  (∀ (s : State) (a : Access) (rest : List Input), s.moves = .host a :: rest →
    0x40 ≤ a.offset.toNat → step s = .fault (.outsideWindow a.offset))

/-- The window defines only 32-bit accesses at multiples of 4, and the only side effects are those
of CTRL.START and LEN (10 rule R38): any other access inside the window is refused, a read changes
nothing but the value returned, and a write that changes the machine is one of the two. -/
def Obligations.WindowAccessRules : Prop :=
  (∀ (s : State) (a : Access) (rest : List Input), s.moves = .host a :: rest →
    a.offset.toNat < 0x40 → (a.size ≠ 4 ∨ a.offset.toNat % 4 ≠ 0) → ∃ r, step s = .refused r) ∧
  (∀ (s : State) (off v : Word) (rest : List Input),
    s.moves = .host ⟨false, 4, off, v⟩ :: rest → off.toNat < 0x40 → off.toNat % 4 = 0 →
    ∃ x, step s = .next { s with script := rest, rdata := x }) ∧
  (∀ (s t : State) (a : Access) (rest : List Input), s.moves = .host a :: rest →
    a.write = true → step s = .next t → t ≠ { s with script := rest } →
    (a.offset = 0x00#32 ∧ a.data.getLsbD 0 = true) ∨ a.offset = 0x08#32)

/-- REG_READ returns the register at its offset and changes nothing else (45 rule R174, 10 rules
R25 to R36). -/
def Obligations.RegisterReadReturnsItsRegister : Prop :=
  ∀ (s : State) (off : BitVec 6), off.toNat % 4 = 0 →
    ∃ v, exec (.regRead off) s = .next { s with rdata := v } ∧
      (off = 0x00#6 → v = 0#32) ∧ (off = 0x04#6 → v = s.statusWord) ∧ (off = 0x08#6 → v = s.len) ∧
      (off = 0x0C#6 → v = s.padlen) ∧ (off = 0x10#6 → v = s.cursor) ∧
      (off = 0x14#6 → v = s.seed) ∧ (off = 0x18#6 → v = 0#16 ++ s.crc) ∧
      (off = 0x1C#6 → v = 0#16 ++ s.crcb ++ s.crca) ∧ (off = 0x20#6 → v = s.errOffset) ∧
      (off = 0x24#6 → v = s.errInfo) ∧ (off = 0x28#6 → v = 0#16 ++ s.peerCrc) ∧
      (0x2C ≤ off.toNat → v = 0#32)

/-- The fields of STATUS, its reset value, and that a write to it is ignored (10 rule R27). -/
def Obligations.StatusFields : Prop :=
  (∀ s : State,
    s.statusWord.extractLsb' 0 5 = s.state ∧
    (s.statusWord.getLsbD 5 = true ↔ s.state ≠ 0#5 ∧ s.state ≠ 18#5 ∧ s.state ≠ 19#5) ∧
    (s.statusWord.getLsbD 6 = true ↔ s.state = 18#5) ∧
    (s.statusWord.getLsbD 7 = true ↔ s.state = 19#5) ∧
    (s.statusWord.extractLsb' 8 3 = if s.state = 19#5 then s.errcode else 0#3) ∧
    (s.statusWord.getLsbD 11 = true ↔ s.state = 18#5 ∧ s.crcMatch = true) ∧
    s.statusWord.getLsbD 12 = s.linkEn ∧ s.statusWord.getLsbD 12 = s.statusWord.getLsbD 5 ∧
    s.statusWord.extractLsb' 13 3 = 0#3 ∧
    (s.statusWord.extractLsb' 16 5 = if s.state = 19#5 then s.errstate else 0#5) ∧
    s.statusWord.extractLsb' 21 2 = s.phase.bits ∧
    s.statusWord.getLsbD 23 = s.pollhit ∧
    s.statusWord.extractLsb' 24 8 = 0#8) ∧
  State.reset.statusWord = 0x00000000#32 ∧
  (∀ (s : State) (v : Word) (rest : List Input),
    s.moves = .host ⟨true, 4, 0x04#32, v⟩ :: rest → step s = .next { s with script := rest })

/-- The status outputs equal STATUS bits 5, 6 and 7 (10 rule R43), `link_en` equals BUSY (R42) and
`tx_valid` is 1 iff PHASE is REQ, with TXW on `tx_word` (R40). -/
def Obligations.OutputsFollowStatus : Prop :=
  ∀ s : State, s.stBusy = s.statusWord.getLsbD 5 ∧ s.stDone = s.statusWord.getLsbD 6 ∧
    s.stErr = s.statusWord.getLsbD 7 ∧ s.linkEn = s.statusWord.getLsbD 5 ∧
    (s.txValid = true ↔ s.phase = .req) ∧ s.txWord = s.txw

/-! ## Reset -/

/-- After reset every element of the block's state is 0, every window register reads 0 and the
outputs are 0 (10 rule R46, 70 rule R221). -/
def Obligations.ResetStateIsZero : Prop :=
  (∀ r : Reg, r.get State.reset = 0#32) ∧ (∀ off : BitVec 6, State.reset.regAt off = 0#32) ∧
  State.reset.txValid = false ∧ State.reset.linkEn = false ∧ State.reset.stBusy = false ∧
  State.reset.stDone = false ∧ State.reset.stErr = false

/-- A reset in any state sets every element to its reset value (70 rule R220) and leaves the image
and the parameters; an exchange it cut (PHASE REQ or RSP) leaves the transport to be drained (70
rule R222), and the transport may still complete it once (log 8). -/
def Obligations.ResetClearsTheBlock : Prop :=
  ∀ (s : State) (rest : List Input), s.moves = .rst :: rest →
    ∃ t, step s = .next t ∧ (∀ r : Reg, r.get t = r.get State.reset) ∧ t.linkEn = false ∧
      t.image = s.image ∧ t.cfg = s.cfg ∧ t.script = rest ∧ t.loop = s.loop ∧
      t.rdata = s.rdata ∧ t.request = (if s.phase = .issue then s.request else .outstanding) ∧
      (t.cut = true ↔ s.cut = true ∨ s.phase = .req ∨ s.phase = .rsp)

/-- After a reset that cut an exchange, a START that would begin a session is refused until the
host has reset or drained the transport, which changes nothing else (70 rule R222, 60 rule R216, 93
§3). -/
def Obligations.StartWaitsForTheDrain : Prop :=
  (∀ (s : State) (v : Word) (rest : List Input),
    s.moves = .host ⟨true, 4, 0x00#32, v⟩ :: rest → v.getLsbD 0 = true → s.cut = true →
    s.busy = false → 0xC0 ≤ s.len.toNat → s.len.toNat ≤ 0x40000 →
    step s = .refused .startBeforeDrain) ∧
  (∀ (s : State) (rest : List Input), s.moves = .drain :: rest →
    step s = .next { s with script := rest, cut := false })

/-! ## The datapath units -/

/-- The units that are one formula each: the response fields (40 rule R100), the keystream step
modulo 2^32 (R104), the seed (R112), the adjustment of crcA (R114), the acknowledge frame (R115), the
fold word (R116) and the CRC frame (R117). -/
def Obligations.DatapathFormulas : Prop :=
  (∀ r : Word, (rxHi r).toNat = r.toNat / 2 ^ 16 ∧ (rxTag r).toNat = r.toNat / 2 ^ 24 ∧
    (rxParam r).toNat = r.toNat / 2 ^ 16 % 256) ∧
  (∀ s : Word, (lcgStep s).toNat = (0x6F646573 * s.toNat + 1) % 2 ^ 32) ∧
  (∀ a : Byte, seedInit a = 0xFFFF#16 ++ a ++ 0xD1#8) ∧
  (∀ a : Byte, (crcaAdj a).toNat = (a.toNat + 0x0F) % 256) ∧
  (∀ a : Byte, keyAckFrame a = 0x0000#16 ++ 0x64#8 ++ a) ∧
  (∀ a b : Byte, foldWord a b = 0xFFFF#16 ++ b ++ a) ∧
  (∀ c : Half, crcFrame c = 0x0000#16 ++ c)

/-- A byte at or beyond LEN reads 0 whatever the image space holds, a byte below LEN is the image
space's, and multi-byte reads are little-endian (20 rules R53 and R54; 40 rules R101 to R103). -/
def Obligations.ImageReadsMaskedLittleEndian : Prop :=
  ∀ (s : State) (off : Word),
    (s.len ≤ off → s.img off = 0x00#8) ∧
    (off < s.len → off.toNat < 0x40000 → s.img off = Memory.read s.image off.toNat) ∧
    (s.hdrFrame off).toNat = littleEndian [s.img off, s.img (off + 1#32)] ∧
    (s.payWord off).toNat =
      littleEndian [s.img off, s.img (off + 1#32), s.img (off + 2#32), s.img (off + 3#32)]

/-- The CRC of a word is the source's bit loop, least-significant bit first, and the order of two
words matters (40 rules R105 and R106). -/
def Obligations.CrcWordIsTheBitLoop : Prop :=
  (∀ (c : Half) (w : Word), crcWord c w = crcLoop c w) ∧
  ∃ (c : Half) (v w : Word), crcWord (crcWord c v) w ≠ crcWord (crcWord c w) v

/-- The table-driven replacement R107 speaks of equals the bit-serial CRC on every input. -/
def Obligations.CrcByTableEqualsBitSerial : Prop :=
  ∀ (c : Half) (w : Word), crcByTable c w = crcWord c w

/-- Encryption is the source's expression, and encrypting twice gives the word back (40 rules R108
and R109). -/
def Obligations.EncryptIsItsOwnInverse : Prop :=
  ∀ s raw i : Word, encrypt s (encrypt s raw i) i = raw ∧
    encrypt s raw i = s ^^^ raw ^^^ (0xFE000000#32 - i) ^^^ 0x43202F2F#32

/-- The padded length is the source's formula: the least multiple of 16 that is not below LEN, which
stays in the image space for every length a session may have (40 rule R110, 45 rule R172). -/
def Obligations.PadLenRoundsUpToSixteen : Prop :=
  (∀ l : Word, padLen l = (l + 0xF#32) &&& ~~~0xF#32) ∧
  ∀ l : Word, 0xC0 ≤ l.toNat → l.toNat ≤ 0x40000 →
    (padLen l).toNat % 16 = 0 ∧ l.toNat ≤ (padLen l).toNat ∧
    (padLen l).toNat ≤ l.toNat + 15 ∧ 0xC0 ≤ (padLen l).toNat ∧ (padLen l).toNat ≤ 0x40000

/-- The length word under both modes of LEN_WORD_MODE (40 rule R111): above 0x190 both give the
quotient, below it Unsigned divides the wrapped difference and Signed the negative one. -/
def Obligations.LenWordInBothModes : Prop :=
  ∀ p : Word, p.toNat % 16 = 0 → p.toNat ≤ 0x40000 →
    (0x190 ≤ p.toNat → ∀ m, (lenWord m p).toNat = (p.toNat - 0x190) / 4) ∧
    (p.toNat < 0x190 → (lenWord .unsigned p).toNat = (2 ^ 32 + p.toNat - 0x190) / 4) ∧
    4 * (lenWord .signed p).toInt = (p.toNat : Int) - 0x190

/-- DELAY_TICKS is the least number of F_CLK cycles that last 10 ms, for a clock whose count fits
the 32-bit counter (00 rule R10, 60 rule R211). -/
def Obligations.DelayTicksLastTenMilliseconds : Prop :=
  ∀ cfg : Config, cfg.fClk ≤ 100 * (2 ^ 32 - 1) →
    cfg.fClk ≤ 100 * (delayTicks cfg).toNat ∧
    ∀ n : Nat, cfg.fClk ≤ 100 * n → (delayTicks cfg).toNat ≤ n

/-! ## The operations, one by one -/

/-- The polls: HS_POLL sends 0x6202 and records whether the response's high half is 0x7202, FIN_POLL
sends 0x0065 and records whether it is 0x0075; each loads the delay and goes to its wait state (41 rule
R130, 44 rule R161). -/
def Obligations.PollsRecordReadiness : Prop :=
  ExchangeStep .hsPoll (fun s => { s with txw := 0x00006202#32 })
    (fun r s =>
      { s with pollhit := r >>> 16 == 0x7202#32, delay := delayTicks s.cfg, state := 2#5 }) ∧
  ExchangeStep .finPoll (fun s => { s with txw := 0x00000065#32 })
    (fun r s =>
      { s with pollhit := r >>> 16 == 0x0075#32, delay := delayTicks s.cfg, state := 15#5 })

/-- The two wait states count DELAY down to 0 and then leave by POLLHIT (41 rule R131, 44 rule
R162). -/
def Obligations.WaitStatesCountDown : Prop :=
  ∀ s : State,
    (s.delay ≠ 0#32 → exec .hsWait s = .next { s with delay := s.delay - 1#32 } ∧
      exec .finWait s = .next { s with delay := s.delay - 1#32 }) ∧
    (s.delay = 0#32 → s.pollhit = true → exec .hsWait s = .next { s with state := 3#5 } ∧
      exec .finWait s = .next { s with state := 16#5 }) ∧
    (s.delay = 0#32 → s.pollhit = false → exec .hsWait s = .next { s with state := 1#5 } ∧
      exec .finWait s = .next { s with state := 14#5 })

/-- BOOTREQ sends 0x6102, ignores the response, clears CURSOR and goes to HDR (41 rule R132). -/
def Obligations.BootreqStartsTheHeader : Prop :=
  ExchangeStep .bootreq (fun s => { s with txw := 0x00006102#32 })
    (fun _ s => { s with cursor := 0#32, state := 4#5 })

/-- HDR sends the two image bytes at CURSOR in the low half, ignores the response, steps CURSOR by
2 and ends at 0xC0 (41 rule R133, 30 rule R72). -/
def Obligations.HdrSendsTwoBytes : Prop :=
  ExchangeStep .hdr
    (fun s => { s with txw := 0x0000#16 ++ s.img (s.cursor + 1#32) ++ s.img s.cursor })
    (fun _ s =>
      { s with
        cursor := s.cursor + 2#32
        state := if s.cursor = 0xBE#32 then 5#5 else 4#5 })

/-- The exchanges that send a constant, ignore the response and only move on: HDR_END, KEY_SYNC,
KEY_REQ1, FIN_START and FIN_REQ (41 rule R134, 42 rules R140 and R141, 44 rules R160 and R163). -/
def Obligations.MarkerExchangesMoveOn : Prop :=
  ExchangeStep .hdrEnd (fun s => { s with txw := 0x00006200#32 })
    (fun _ s => { s with state := 6#5 }) ∧
  ExchangeStep .keySync (fun s => { s with txw := 0x00006202#32 })
    (fun _ s => { s with state := 7#5 }) ∧
  ExchangeStep .keyReq1 (fun s => { s with txw := 0x000063D1#32 })
    (fun _ s => { s with state := 8#5 }) ∧
  ExchangeStep .finStart (fun s => { s with txw := 0x00000065#32 })
    (fun _ s => { s with state := 14#5 }) ∧
  ExchangeStep .finReq (fun s => { s with txw := 0x00000066#32 })
    (fun _ s => { s with state := 17#5 })

/-- KEY_REQ2 sends 0x63D1 and checks the token: another tag than 0x73 is a rejection that records
CURSOR and the token; else SEED is `0xFFFF00D1 | (crcA << 8)` for the crcA received and CRCA is
`(crcA + 0xF) & 0xFF` (42 rule R142). -/
def Obligations.KeyReq2ChecksTheToken : Prop :=
  ExchangeStep .keyReq2 (fun s => { s with txw := 0x000063D1#32 })
    (fun r s =>
      if r >>> 24 = 0x73#32 then
        { s with
          seed := 0xFFFF00D1#32 ||| (((r >>> 16) &&& 0xFF#32) <<< 8)
          crca := ((((r >>> 16) &&& 0xFF#32) + 0xF#32) &&& 0xFF#32).setWidth 8
          state := 9#5 }
      else
        { s with
          errcode := 3#3, errstate := s.state, errOffset := s.cursor, errInfo := r, phase := .issue
          state := 19#5 })

/-- KEY_ACK sends `0x6400 | CRCA`, ignores the response, sets PADLEN to `(LEN + 0xF) & ~0xF` and
goes to LEN (42 rule R143). -/
def Obligations.KeyAckSetsPadlen : Prop :=
  ExchangeStep .keyAck (fun s => { s with txw := 0x0000#16 ++ 0x64#8 ++ s.crca })
    (fun _ s => { s with padlen := (s.len + 0xF#32) &&& ~~~0xF#32, state := 10#5 })

/-- LEN sends the length word of PADLEN, takes crcB from bits [23:16], sets CRC to 0xC387 and enters
PAY if CURSOR is below PADLEN, else FOLD (42 rule R144). -/
def Obligations.LenTakesCrcB : Prop :=
  ExchangeStep .len (fun s => { s with txw := lenWord s.cfg.lenWordMode s.padlen })
    (fun r s =>
      { s with
        crcb := ((r >>> 16) &&& 0xFF#32).setWidth 8
        crc := 0xC387#16
        state := if s.cursor.toNat < s.padlen.toNat then 11#5 else 12#5 })

/-- PAY updates the CRC over the raw word, advances the keystream and sends the word encrypted with
the advanced seed, all at ISSUE; the response's high half must equal CURSOR's low half, else the
session ends with INTEGRITY at CURSOR; then CURSOR steps by 4 and PADLEN ends the loop (43 rule
R150). -/
def Obligations.PayEncryptsAndVerifies : Prop :=
  ExchangeStep .pay
    (fun s =>
      { s with
        crc := crcLoop s.crc (s.payWord s.cursor)
        seed := 0x6F646573#32 * s.seed + 1#32
        txw := (0x6F646573#32 * s.seed + 1#32) ^^^ s.payWord s.cursor ^^^
          (0xFE000000#32 - s.cursor) ^^^ 0x43202F2F#32 })
    (fun r s =>
      if r >>> 16 = s.cursor &&& 0xFFFF#32 then
        { s with
          cursor := s.cursor + 4#32
          state := if (s.cursor + 4#32).toNat < s.padlen.toNat then 11#5 else 12#5 }
      else
        { s with
          errcode := 4#3, errstate := s.state, errOffset := s.cursor, errInfo := r, phase := .issue
          state := 19#5 })

/-- FOLD folds `0xFFFF0000 | (crcB << 8) | crcA` into the CRC in one step and goes to FIN_START;
nothing is sent and SEED does not advance (43 rule R152). -/
def Obligations.FoldAddsTheParameters : Prop :=
  ∀ s : State, exec .fold s = .next
    { s with crc := crcLoop s.crc (0xFFFF#16 ++ s.crcb ++ s.crca), state := 13#5 }

/-- FIN_CRC sends the CRC, keeps the response's high half as PEER_CRC, records whether the two are
equal and goes to DONE whether they are or not (44 rule R164). -/
def Obligations.FinCrcAlwaysSucceeds : Prop :=
  ExchangeStep .finCrc (fun s => { s with txw := 0x0000#16 ++ s.crc })
    (fun r s =>
      { s with
        peerCrc := (r >>> 16).setWidth 16
        crcMatch := decide ((r >>> 16).toNat = s.crc.toNat)
        state := 18#5 })

/-- IDLE, DONE and ERROR take no step of their own (45 rules R170, R175 and R176). -/
def Obligations.QuiescentStatesRest : Prop :=
  ∀ s : State, exec .idle s = .next s ∧ exec .done s = .next s ∧ exec .error s = .next s

/-- START (45 rules R171 and R172): ignored while BUSY; else it clears every session and error
register but LEN and TXW, and enters HS_POLL for 0xC0 <= LEN <= 0x40000, or ERROR with PRECOND,
ERRSTATE IDLE, offset 0 and LEN recorded. -/
def Obligations.StartOpensAFreshSession : Prop :=
  ∀ s : State,
    (s.busy = true → exec .start s = .next s) ∧
    (s.busy = false → 0xC0 ≤ s.len.toNat → s.len.toNat ≤ 0x40000 → exec .start s = .next
      { s with
        pollhit := false, padlen := 0#32, cursor := 0#32, seed := 0#32, crc := 0#16, crca := 0#8
        crcb := 0#8, errcode := 0#3, errstate := 0#5, errOffset := 0#32, errInfo := 0#32
        peerCrc := 0#16, crcMatch := false, delay := 0#32, phase := .issue, state := 1#5 }) ∧
    (s.busy = false → ¬ (0xC0 ≤ s.len.toNat ∧ s.len.toNat ≤ 0x40000) → exec .start s = .next
      { s with
        pollhit := false, padlen := 0#32, cursor := 0#32, seed := 0#32, crc := 0#16, crca := 0#8
        crcb := 0#8, errcode := 1#3, errstate := 0#5, errOffset := 0#32, errInfo := s.len
        peerCrc := 0#16, crcMatch := false, delay := 0#32, phase := .issue, state := 19#5 })

/-- LEN_WRITE stores all 32 bits when not BUSY, is ignored while BUSY, and changes nothing else (45
rule R173). -/
def Obligations.LenWriteStoresWhenIdle : Prop :=
  ∀ (s : State) (v : Word),
    (s.busy = false → exec (.lenWrite v) s = .next { s with len := v }) ∧
    (s.busy = true → exec (.lenWrite v) s = .next s)

/-! ## Frames -/

/-- Each operation leaves every register unchanged but those its rule's "State written" line names
(41 to 45, tabulated in `Safety.writes`; the error registers of 60 rule R203 for every exchange). -/
def Obligations.RegistersChangedOnlyByTheirOperations : Prop :=
  ∀ (i : Instr) (s t : State) (r : Reg), exec i s = .next t → r ∉ writes i → r.get t = r.get s

/-- No operation writes memory (00 rule R12: there is no `MemWrite`): every byte of the image space,
the parameters, the pins, the agents' moves, the drain bit and the account of the requests are
unchanged, and so is the read data by all but REG_READ. -/
def Obligations.NoOperationWritesMemory : Prop :=
  ∀ (i : Instr) (s t : State), exec i s = .next t →
    (∀ a : Nat, Memory.read t.image a = Memory.read s.image a) ∧ t.cfg = s.cfg ∧
    t.pins = s.pins ∧ t.script = s.script ∧ t.loop = s.loop ∧ t.cut = s.cut ∧
    t.request = s.request ∧ ((∀ off, i ≠ .regRead off) → t.rdata = s.rdata)

/-- A host write to the image space changes the byte at its offset and no other, and below LEN it is
refused during a session (20 rule R60, 60 rule R216). Two clauses are the model's choice: outside the
18-bit space of R51 the write faults (log 10, DESIGN CHOICE), and at or beyond LEN it is performed in a
session too, since the rules forbid only the bytes below LEN (log 14, DEDUCED). The image is in canonical form, which every step keeps (`StepKeepsTheInvariant`). -/
def Obligations.HostImageWriteChangesOneByte : Prop :=
  ∀ (s : State) (off : Nat) (b : Byte) (rest : List Input), Memory.wf s.image →
    s.moves = .image off b :: rest →
    (0x40000 ≤ off → step s = .fault (.outsideImage off)) ∧
    (off < 0x40000 → s.busy = true → off < s.len.toNat →
      step s = .refused (.imageWriteWhileBusy off)) ∧
    (off < 0x40000 → (s.busy = false ∨ s.len.toNat ≤ off) → ∃ m,
      step s = .next { s with script := rest, image := m } ∧ Memory.read m off = b ∧
      ∀ a, a ≠ off → Memory.read m a = Memory.read s.image a)

/-! ## Rules of the whole machine -/

/-- STATE changes only along the spec's sequence (00 rule R3, 10 rule R21, 30 rule R85): the phases
run downward, only the two poll loops go back, an exchange may fail to ERROR, START leaves the
quiescent states, and a reset goes to IDLE. -/
def Obligations.StateFollowsTheSequence : Prop :=
  ∀ s t : State, step s = .next t → t.state ≠ s.state →
    (s.moves.head? = some .rst ∧ t.state = 0#5) ∨
    (s.state.toNat, t.state.toNat) ∈
      [(0, 1), (18, 1), (19, 1), (0, 19), (18, 19),
       (1, 2), (2, 1), (2, 3), (3, 4), (4, 5), (5, 6), (6, 7), (7, 8), (8, 9), (9, 10), (10, 11),
       (10, 12), (11, 12), (12, 13), (13, 14), (14, 15), (15, 14), (15, 16), (16, 17), (17, 18)] ∨
    (exchangeState s.state = true ∧ t.state = 19#5)

/-- IDLE, DONE and ERROR are left only by a START or a reset (45 rules R170, R175, R176 and R177, 60
rule R208). -/
def Obligations.QuiescentLeftOnlyByStartOrReset : Prop :=
  ∀ s t : State, step s = .next t → s.busy = false → t.state ≠ s.state →
    s.moves.head? = some .rst ∨
    ∃ v, s.moves.head? = some (.host ⟨true, 4, 0x00#32, v⟩) ∧ v.getLsbD 0 = true

/-- During a session nothing but time and a reset moves the block: a host access, an image write
or a drain leaves every register of the block as it was (45 rules R171, R173 and R177, 70 rule
R228). -/
def Obligations.BusySessionIgnoresTheHost : Prop :=
  ∀ (s t : State) (m : Input) (rest : List Input), s.moves = m :: rest → s.busy = true →
    step s = .next t → m ≠ .rst → (∀ p, m ≠ .clock p) → ∀ r : Reg, r.get t = r.get s

/-- DONE is entered only by the completion of FIN_CRC with a response (45 rule R175, 70 rule
R232). -/
def Obligations.DoneOnlyAfterTheFinalExchange : Prop :=
  ∀ s t : State, step s = .next t → t.state = 18#5 → s.state ≠ 18#5 →
    s.state = 17#5 ∧ s.phase = .rsp ∧
    ∃ p, s.moves.head? = some (.clock p) ∧ p.rxValid = true ∧ p.rxFail = false

/-- ERROR is entered only for the causes of 60 rule R201, with the record of R203, and precisely
(R206, R207): in the completion of the exchange at fault, a failure before any check of the
response, or by a START out of range. -/
def Obligations.ErrorsHaveTheirCauses : Prop :=
  ∀ s t : State, step s = .next t → t.state = 19#5 → s.state ≠ 19#5 →
    (s.busy = false ∧ ¬ (0xC0 ≤ s.len.toNat ∧ s.len.toNat ≤ 0x40000) ∧ t.errcode = 1#3 ∧
      t.errstate = 0#5 ∧ t.errOffset = 0#32 ∧ t.errInfo = s.len ∧
      ∃ v, s.moves.head? = some (.host ⟨true, 4, 0x00#32, v⟩) ∧ v.getLsbD 0 = true) ∨
    (exchangeState s.state = true ∧ s.phase = .rsp ∧ t.phase = .issue ∧ t.errstate = s.state ∧
      t.errOffset = s.cursor ∧ t.cursor = s.cursor ∧ t.seed = s.seed ∧ t.crc = s.crc ∧
      ∃ p, s.moves.head? = some (.clock p) ∧ p.rxValid = true ∧
        ((p.rxFail = true ∧ t.errcode = 2#3 ∧ t.errInfo = 0#32) ∨
         (p.rxFail = false ∧ s.state = 8#5 ∧ p.rxWord >>> 24 ≠ 0x73#32 ∧ t.errcode = 3#3 ∧
           t.errInfo = p.rxWord) ∨
         (p.rxFail = false ∧ s.state = 11#5 ∧ p.rxWord >>> 16 ≠ s.cursor &&& 0xFFFF#32 ∧
           t.errcode = 4#3 ∧ t.errInfo = p.rxWord)))

/-- `link_en` equals STATUS.BUSY, rises at an accepted START and at nothing else, and falls on every entry to DONE or
ERROR and on reset (10 rule R42, 60 rule R205). -/
def Obligations.LinkReleasedWhenTheSessionEnds : Prop :=
  (∀ s : State, s.linkEn = s.statusWord.getLsbD 5) ∧
  ∀ s t : State, step s = .next t →
    (s.linkEn = false → t.linkEn = true → t.state = 1#5 ∧ 0xC0 ≤ s.len.toNat ∧
      s.len.toNat ≤ 0x40000 ∧
      ∃ v, s.moves.head? = some (.host ⟨true, 4, 0x00#32, v⟩) ∧ v.getLsbD 0 = true) ∧
    (s.linkEn = true → t.linkEn = false →
      t.state = 18#5 ∨ t.state = 19#5 ∨ (s.moves.head? = some .rst ∧ t.state = 0#5)) ∧
    (t.state = 18#5 ∨ t.state = 19#5 → t.linkEn = false) ∧
    (s.moves.head? = some .rst → t.linkEn = false) ∧
    (∀ v, s.moves.head? = some (.host ⟨true, 4, 0x00#32, v⟩) → v.getLsbD 0 = true →
      s.busy = false → 0xC0 ≤ s.len.toNat → s.len.toNat ≤ 0x40000 → t.linkEn = true)

/-- During a session LEN and the image bytes below LEN do not change (10 rule R28, 20 rule R60). -/
def Obligations.SessionFreezesLenAndImage : Prop :=
  ∀ s t : State, step s = .next t → s.busy = true → s.moves.head? ≠ some .rst →
    t.len = s.len ∧ ∀ a, a < s.len.toNat → Memory.read t.image a = Memory.read s.image a

/-- TXW is stable while an exchange is offered or outstanding, and changes only in an ISSUE step (10
rule R40). -/
def Obligations.FrameStableWhileOffered : Prop :=
  ∀ s t : State, step s = .next t → s.moves.head? ≠ some .rst → t.txw ≠ s.txw →
    s.phase = .issue ∧ t.phase = .req ∧ exchangeState s.state = true

/-- A completion is used only while PHASE is RSP and `tx_ready` only while PHASE is REQ (10 rule
R40): in every other phase those pins change nothing in any operation. (That the second completion of one
request stops the step before its operation runs is `OneCompletionPerRequest`, log 8.) -/
def Obligations.PinsReadOnlyInTheirPhase : Prop :=
  ∀ (i : Instr) (s : State) (p : Pins), p.txReady = s.pins.txReady ∨ s.phase ≠ .req →
    (p.rxValid = s.pins.rxValid ∧ p.rxWord = s.pins.rxWord ∧ p.rxFail = s.pins.rxFail) ∨
      s.phase ≠ .rsp →
    exec i { s with pins := p } = mapNext (fun t => { t with pins := p }) (exec i s)

/-- Responses that no state reads are don't-care (30 rules R78 and R82): any word in the states
that ignore it, any bits outside the field read in the polls, LEN and FIN_CRC, and the low half of an
accepted token or echo. (A rejected one is recorded whole in ERR_INFO, 10 rule R35, log 11.) -/
def Obligations.UnreadResponseBitsIgnored : Prop :=
  (∀ i ∈ [Instr.bootreq, .hdr, .hdrEnd, .keySync, .keyReq1, .keyAck, .finStart, .finReq],
    ∀ (s : State) (r : Word), exec i (withWord r s) = mapNext (withWord r) (exec i s)) ∧
  (∀ i ∈ [Instr.hsPoll, .finPoll, .finCrc], ∀ (s : State) (r : Word),
    r.extractLsb' 16 16 = s.pins.rxWord.extractLsb' 16 16 →
    exec i (withWord r s) = mapNext (withWord r) (exec i s)) ∧
  (∀ (s : State) (r : Word), r.extractLsb' 16 8 = s.pins.rxWord.extractLsb' 16 8 →
    exec .len (withWord r s) = mapNext (withWord r) (exec .len s)) ∧
  (∀ i ∈ [Instr.keyReq2, .pay], ∀ (s : State) (r : Word),
    r.extractLsb' 16 16 = s.pins.rxWord.extractLsb' 16 16 →
    (i = .keyReq2 → r.extractLsb' 24 8 = 0x73#8) →
    (i = .pay → r.extractLsb' 16 16 = s.cursor.setWidth 16) →
    exec i (withWord r s) = mapNext (withWord r) (exec i s))

/-! ## The invariant -/

/-- The reset state meets the invariant (10 rules R21, R22 and R46). -/
def Obligations.ResetMeetsTheInvariant : Prop := Inv State.reset

/-- Every step keeps the invariant: legal STATE and PHASE codes (30 rule R81), CURSOR, PADLEN and
LEN in their places (10 rules R29 and R30, 43 rule R151), registers 0 until the session writes them
(R46), the error record (60 rule R201), and the canonical form of the image. -/
def Obligations.StepKeepsTheInvariant : Prop :=
  ∀ s t : State, Inv s → step s = .next t → Inv t

/-- The image is read only inside the 18-bit space: in ISSUE, HDR depends on the image at an even
CURSOR below 0xC0 and at the byte after it, PAY at a CURSOR that is a multiple of 4 from 0xC0 up and at
the three bytes after it, all below PADLEN and so below 0x40000 (20 rules R52 and R57); in the other
phases they and in every phase all other operations do not depend on it (20 rule R63). The invariant
`Inv` is kept by every step (`StepKeepsTheInvariant`). -/
def Obligations.ImageReadsInsideTheSpace : Prop :=
  ∀ (s : State) (m : Memory), Inv s →
    (s.state = 4#5 → s.phase = .issue →
      s.cursor.toNat % 2 = 0 ∧ s.cursor.toNat + 1 < 0xC0 ∧
      ((∀ k < 2, Memory.read m (s.cursor.toNat + k) = Memory.read s.image (s.cursor.toNat + k)) →
        exec .hdr { s with image := m } = mapNext (fun t => { t with image := m }) (exec .hdr s))) ∧
    (s.state = 11#5 → s.phase = .issue →
      s.cursor.toNat % 4 = 0 ∧ 0xC0 ≤ s.cursor.toNat ∧ s.cursor.toNat + 3 < s.padlen.toNat ∧
      s.padlen.toNat ≤ 0x40000 ∧
      ((∀ k < 4, Memory.read m (s.cursor.toNat + k) = Memory.read s.image (s.cursor.toNat + k)) →
        exec .pay { s with image := m } = mapNext (fun t => { t with image := m }) (exec .pay s))) ∧
    (∀ i : Instr, (i = .hdr ∨ i = .pay → s.phase ≠ .issue) →
      exec i { s with image := m } = mapNext (fun t => { t with image := m }) (exec i s))

/-! ## The transport's account -/

/-- One completion for one request (70 rule R226, 60 rule R216, 93 §3). A second completion of one
request is refused, and the awaited completion never is; a request becomes outstanding by the
acceptance of the offered frame (or when a reset cuts an exchange, log 8), and is answered by the next
completion strobe. -/
def Obligations.OneCompletionPerRequest : Prop :=
  (∀ (s : State) (p : Pins) (rest : List Input), s.moves = .clock p :: rest →
    s.request = .answered → p.rxValid = true → step s = .refused .secondCompletion) ∧
  (∀ (s : State) (p : Pins) (rest : List Input), Inv s → s.phase = .rsp →
    s.moves = .clock p :: rest → ∃ t, step s = .next t) ∧
  (∀ s t : State, step s = .next t → s.request ≠ .outstanding → t.request = .outstanding →
    (s.phase = .req ∧ ∃ p, s.moves.head? = some (.clock p) ∧ p.txReady = true) ∨
    (s.phase ≠ .issue ∧ s.moves.head? = some .rst)) ∧
  (∀ s t : State, step s = .next t → s.request = .outstanding → t.request ≠ .outstanding →
    t.request = .answered ∧ ∃ p, s.moves.head? = some (.clock p) ∧ p.rxValid = true) ∧
  (∀ (s t : State) (p : Pins), step s = .next t → s.moves.head? = some (.clock p) →
    (s.phase = .req ∧ p.txReady = true → t.request = .outstanding) ∧
    (s.phase = .rsp → s.request = .outstanding → p.rxValid = true → t.request = .answered))

/-! ## Runs -/

/-- A wait state lasts: while at most DELAY transitions have passed and there was no reset, the block
is still in the wait state, whatever the host and the transport did (60 rule R211, 70 rule R225). And it
ends: after DELAY quiet cycles and one more the block is in the successor POLLHIT chooses (41 rule R131,
44 rule R162). -/
def Obligations.WaitLastsItsDelay : Prop :=
  (∀ (s t : State) (n : Nat), (s.state = 2#5 ∨ s.state = 15#5) → noReset s.script →
    noReset s.loop → n ≤ s.delay.toNat → core.run n s = .next t →
    t.state = s.state ∧ t.txValid = s.txValid) ∧
  (∀ (s : State) (rest : List Input), s.state = 2#5 ∨ s.state = 15#5 →
    s.script = quietCycles (s.delay.toNat + 1) ++ rest →
    core.run (s.delay.toNat + 1) s = .next
      { s with
        delay := 0#32, script := rest, pins := Pins.quiet
        state :=
          if s.state = 2#5 then (if s.pollhit then 3#5 else 1#5)
          else (if s.pollhit then 16#5 else 14#5) })

/-- The waits without a bound (70 rule R231, 60 rule R216): a peer that answers every poll, but never
ready, keeps the block in the poll loop for ever, and a transport that makes no move keeps an exchange
offered or outstanding for ever; both runs go on for every number of steps. -/
def Obligations.PollingMayNeverEnd : Prop :=
  (∀ (s : State) (rs : List Reply), rs ≠ [] → s.phase = .issue → s.script = [] →
    s.loop = pollCycles (delayTicks s.cfg).toNat rs →
    (s.state = 1#5 → (∀ r ∈ rs, r.word.extractLsb' 16 16 ≠ 0x7202#16) →
      ∀ n : Nat, ∃ t, core.run n s = .next t ∧ (t.state = 1#5 ∨ t.state = 2#5)) ∧
    (s.state = 14#5 → (∀ r ∈ rs, r.word.extractLsb' 16 16 ≠ 0x0075#16) →
      ∀ n : Nat, ∃ t, core.run n s = .next t ∧ (t.state = 14#5 ∨ t.state = 15#5))) ∧
  (∀ s : State, exchangeState s.state = true → s.phase ≠ .issue → s.moves = [] →
    ∀ n : Nat, ∃ t, core.run n s = .next t ∧ t.state = s.state ∧ t.phase = s.phase)

/-- An exchange completes in any state of the FSM, however long the transport takes: the frame is
latched in the first cycle, and the response reaches the operation's completion (40 rules R113, R118
and R119). -/
def Obligations.ExchangeRunsToItsCompletion : Prop :=
  ∀ (s : State) (i : Instr) (r : Reply) (rest : List Input), exchangeState s.state = true →
    decode (.state s.state) = .ok i → s.phase = .issue → s.script = r.cycles ++ rest →
    ∃ u, exec i { s with script := rest, pins := Pins.quiet } = .next u ∧
      core.run r.cycles.length s = exec i
        { u with phase := .rsp, pins := answer r.word, request := .answered } ∧
      frames (trace r.cycles.length s) = [u.txw]

/-- One request per response: in any run without a reset, frames sent and completions alternate, from
any state whose outstanding exchange, if there is one, is an exchange state's (20 rule R62, 30 rule
R84, 70 rule R226). A run that starts in PHASE RSP begins with a completion. -/
def Obligations.FramesAndResponsesAlternate : Prop :=
  ∀ (s : State) (n : Nat), (s.phase = .rsp → exchangeState s.state = true) →
    noReset s.script → noReset s.loop → alternate (s.phase == .rsp) (trace n s)

/-- The header phase: 96 exchanges with any responses and any waits send the 96 header frames in
order and reach HDR_END with CURSOR 0xC0 and nothing else changed but TXW (41 rule R133, 30 rules R72
and R85). -/
def Obligations.HeaderPhaseSendsTheHeader : Prop :=
  ∀ (s : State) (rs : List Reply) (rest : List Input), s.state = 4#5 → s.phase = .issue →
    s.cursor = 0#32 → rs.length = 96 → s.script = cyclesOf rs ++ rest →
    ∃ t, core.run (cyclesOf rs).length s = .next t ∧ t.state = 5#5 ∧ t.phase = .issue ∧
      t.cursor = 0xC0#32 ∧ t.script = rest ∧ t.image = s.image ∧
      (∀ r : Reg, r ≠ .state → r ≠ .cursor → r ≠ .txw → r.get t = r.get s) ∧
      frames (trace (cyclesOf rs).length s) = (List.range 96).map (hdrFrameAt s)

/-- The payload phase: with every offset echoed, the block sends every payload word encrypted under
the advancing keystream, folds each raw word into the CRC, and reaches FOLD with CURSOR at PADLEN (43
rules R150 and R151, 30 rules R75 and R85). -/
def Obligations.PayloadPhaseSendsThePayload : Prop :=
  ∀ (s : State) (rs : List Reply) (rest : List Input), s.state = 11#5 → s.phase = .issue →
    s.cursor = 0xC0#32 → s.padlen.toNat % 16 = 0 → 0xC0 < s.padlen.toNat →
    s.padlen.toNat ≤ 0x40000 → rs.length = (s.padlen.toNat - 0xC0) / 4 →
    (∀ k (h : k < rs.length), rs[k].word.extractLsb' 16 16 = (payOffset k).setWidth 16) →
    s.script = cyclesOf rs ++ rest →
    ∃ t, core.run (cyclesOf rs).length s = .next t ∧ t.state = 12#5 ∧ t.phase = .issue ∧
      t.cursor = s.padlen ∧ t.script = rest ∧ t.image = s.image ∧
      t.seed = seedAfter s.seed rs.length ∧ t.crc = payCrc s s.crc rs.length ∧
      (∀ r : Reg, r ≠ .state → r ≠ .cursor → r ≠ .txw → r ≠ .seed → r ≠ .crc →
        r.get t = r.get s) ∧
      frames (trace (cyclesOf rs).length s) = (List.range rs.length).map (payFrameAt s s.seed)

/-- A whole session: from a quiescent state with a length in range and no cut exchange still to be
drained (`cut = false`, log 5), a START and a peer that gives
the answers R78 needs, however often it makes the block poll and however long it takes, lead to DONE;
the frames sent are exactly the sequence of 30 rule R85, and the result registers hold the keystream,
the CRC and the peer's CRC (30 rule R85, 44 rule R164, 45 rule R171). -/
def Obligations.SessionSendsTheFrameSequence : Prop :=
  ∀ (s : State) (p : Peer) (rest : List Input), s.busy = false → s.cut = false →
    0xC0 ≤ s.len.toNat → s.len.toNat ≤ 0x40000 → p.Cooperates s →
    s.script = p.script (delayTicks s.cfg).toNat ++ rest →
    ∃ t, core.run (p.script (delayTicks s.cfg).toNat).length s = .next t ∧ t.state = 18#5 ∧
      t.script = rest ∧ t.image = s.image ∧ t.len = s.len ∧ t.padlen = padOf s ∧
      t.cursor = padOf s ∧ t.seed = seedAfter p.seed (payWords s) ∧ t.crc = p.finalCrc s ∧
      t.crca = p.crcAdj ∧ t.crcb = p.crcB ∧
      t.peerCrc = p.finCrc.word.extractLsb' 16 16 ∧ t.crcMatch = (t.peerCrc == t.crc) ∧
      t.errcode = 0#3 ∧
      frames (trace (p.script (delayTicks s.cfg).toNat).length s) = p.frames s
end

