-- ==== Sys2Proof/Laws/State.lean ====
section
/-!
SUPPORT. One lemma per field for each named update of the state, so that a proof reads a field of an
updated state by `simp` and never unfolds the update.
-/

namespace Sys2Proof.Machine

/-! Entering ERROR (60_exceptions.md rule R203). -/

@[simp] theorem State.raiseError_state (s : State) (code : BitVec 3) (off info : Word) :
    (s.raiseError code off info).state = 19#5 := rfl
@[simp] theorem State.raiseError_phase (s : State) (code : BitVec 3) (off info : Word) :
    (s.raiseError code off info).phase = .issue := rfl
@[simp] theorem State.raiseError_pollhit (s : State) (code : BitVec 3) (off info : Word) :
    (s.raiseError code off info).pollhit = s.pollhit := rfl
@[simp] theorem State.raiseError_delay (s : State) (code : BitVec 3) (off info : Word) :
    (s.raiseError code off info).delay = s.delay := rfl
@[simp] theorem State.raiseError_txw (s : State) (code : BitVec 3) (off info : Word) :
    (s.raiseError code off info).txw = s.txw := rfl
@[simp] theorem State.raiseError_len (s : State) (code : BitVec 3) (off info : Word) :
    (s.raiseError code off info).len = s.len := rfl
@[simp] theorem State.raiseError_padlen (s : State) (code : BitVec 3) (off info : Word) :
    (s.raiseError code off info).padlen = s.padlen := rfl
@[simp] theorem State.raiseError_cursor (s : State) (code : BitVec 3) (off info : Word) :
    (s.raiseError code off info).cursor = s.cursor := rfl
@[simp] theorem State.raiseError_seed (s : State) (code : BitVec 3) (off info : Word) :
    (s.raiseError code off info).seed = s.seed := rfl
@[simp] theorem State.raiseError_crc (s : State) (code : BitVec 3) (off info : Word) :
    (s.raiseError code off info).crc = s.crc := rfl
@[simp] theorem State.raiseError_crca (s : State) (code : BitVec 3) (off info : Word) :
    (s.raiseError code off info).crca = s.crca := rfl
@[simp] theorem State.raiseError_crcb (s : State) (code : BitVec 3) (off info : Word) :
    (s.raiseError code off info).crcb = s.crcb := rfl
@[simp] theorem State.raiseError_errcode (s : State) (code : BitVec 3) (off info : Word) :
    (s.raiseError code off info).errcode = code := rfl
@[simp] theorem State.raiseError_errstate (s : State) (code : BitVec 3) (off info : Word) :
    (s.raiseError code off info).errstate = s.state := rfl
@[simp] theorem State.raiseError_errOffset (s : State) (code : BitVec 3) (off info : Word) :
    (s.raiseError code off info).errOffset = off := rfl
@[simp] theorem State.raiseError_errInfo (s : State) (code : BitVec 3) (off info : Word) :
    (s.raiseError code off info).errInfo = info := rfl
@[simp] theorem State.raiseError_peerCrc (s : State) (code : BitVec 3) (off info : Word) :
    (s.raiseError code off info).peerCrc = s.peerCrc := rfl
@[simp] theorem State.raiseError_crcMatch (s : State) (code : BitVec 3) (off info : Word) :
    (s.raiseError code off info).crcMatch = s.crcMatch := rfl
@[simp] theorem State.raiseError_image (s : State) (code : BitVec 3) (off info : Word) :
    (s.raiseError code off info).image = s.image := rfl
@[simp] theorem State.raiseError_pins (s : State) (code : BitVec 3) (off info : Word) :
    (s.raiseError code off info).pins = s.pins := rfl
@[simp] theorem State.raiseError_rdata (s : State) (code : BitVec 3) (off info : Word) :
    (s.raiseError code off info).rdata = s.rdata := rfl
@[simp] theorem State.raiseError_cut (s : State) (code : BitVec 3) (off info : Word) :
    (s.raiseError code off info).cut = s.cut := rfl
@[simp] theorem State.raiseError_script (s : State) (code : BitVec 3) (off info : Word) :
    (s.raiseError code off info).script = s.script := rfl
@[simp] theorem State.raiseError_request (s : State) (code : BitVec 3) (off info : Word) :
    (s.raiseError code off info).request = s.request := rfl
@[simp] theorem State.raiseError_loop (s : State) (code : BitVec 3) (off info : Word) :
    (s.raiseError code off info).loop = s.loop := rfl
@[simp] theorem State.raiseError_cfg (s : State) (code : BitVec 3) (off info : Word) :
    (s.raiseError code off info).cfg = s.cfg := rfl

/-! The clear of an accepted START (45_host_commands.md rule R171). -/

@[simp] theorem State.clearSession_state (s : State) :
    (s.clearSession).state = 0#5 := rfl
@[simp] theorem State.clearSession_phase (s : State) :
    (s.clearSession).phase = .issue := rfl
@[simp] theorem State.clearSession_pollhit (s : State) :
    (s.clearSession).pollhit = false := rfl
@[simp] theorem State.clearSession_delay (s : State) :
    (s.clearSession).delay = 0#32 := rfl
@[simp] theorem State.clearSession_txw (s : State) :
    (s.clearSession).txw = s.txw := rfl
@[simp] theorem State.clearSession_len (s : State) :
    (s.clearSession).len = s.len := rfl
@[simp] theorem State.clearSession_padlen (s : State) :
    (s.clearSession).padlen = 0#32 := rfl
@[simp] theorem State.clearSession_cursor (s : State) :
    (s.clearSession).cursor = 0#32 := rfl
@[simp] theorem State.clearSession_seed (s : State) :
    (s.clearSession).seed = 0#32 := rfl
@[simp] theorem State.clearSession_crc (s : State) :
    (s.clearSession).crc = 0#16 := rfl
@[simp] theorem State.clearSession_crca (s : State) :
    (s.clearSession).crca = 0#8 := rfl
@[simp] theorem State.clearSession_crcb (s : State) :
    (s.clearSession).crcb = 0#8 := rfl
@[simp] theorem State.clearSession_errcode (s : State) :
    (s.clearSession).errcode = 0#3 := rfl
@[simp] theorem State.clearSession_errstate (s : State) :
    (s.clearSession).errstate = 0#5 := rfl
@[simp] theorem State.clearSession_errOffset (s : State) :
    (s.clearSession).errOffset = 0#32 := rfl
@[simp] theorem State.clearSession_errInfo (s : State) :
    (s.clearSession).errInfo = 0#32 := rfl
@[simp] theorem State.clearSession_peerCrc (s : State) :
    (s.clearSession).peerCrc = 0#16 := rfl
@[simp] theorem State.clearSession_crcMatch (s : State) :
    (s.clearSession).crcMatch = false := rfl
@[simp] theorem State.clearSession_image (s : State) :
    (s.clearSession).image = s.image := rfl
@[simp] theorem State.clearSession_pins (s : State) :
    (s.clearSession).pins = s.pins := rfl
@[simp] theorem State.clearSession_rdata (s : State) :
    (s.clearSession).rdata = s.rdata := rfl
@[simp] theorem State.clearSession_cut (s : State) :
    (s.clearSession).cut = s.cut := rfl
@[simp] theorem State.clearSession_script (s : State) :
    (s.clearSession).script = s.script := rfl
@[simp] theorem State.clearSession_request (s : State) :
    (s.clearSession).request = s.request := rfl
@[simp] theorem State.clearSession_loop (s : State) :
    (s.clearSession).loop = s.loop := rfl
@[simp] theorem State.clearSession_cfg (s : State) :
    (s.clearSession).cfg = s.cfg := rfl

/-! A cycle of reset (70_reset_and_hazards.md rule R220). -/

@[simp] theorem State.resetBlock_state (s : State) :
    (s.resetBlock).state = 0#5 := rfl
@[simp] theorem State.resetBlock_phase (s : State) :
    (s.resetBlock).phase = .issue := rfl
@[simp] theorem State.resetBlock_pollhit (s : State) :
    (s.resetBlock).pollhit = false := rfl
@[simp] theorem State.resetBlock_delay (s : State) :
    (s.resetBlock).delay = 0#32 := rfl
@[simp] theorem State.resetBlock_txw (s : State) :
    (s.resetBlock).txw = 0#32 := rfl
@[simp] theorem State.resetBlock_len (s : State) :
    (s.resetBlock).len = 0#32 := rfl
@[simp] theorem State.resetBlock_padlen (s : State) :
    (s.resetBlock).padlen = 0#32 := rfl
@[simp] theorem State.resetBlock_cursor (s : State) :
    (s.resetBlock).cursor = 0#32 := rfl
@[simp] theorem State.resetBlock_seed (s : State) :
    (s.resetBlock).seed = 0#32 := rfl
@[simp] theorem State.resetBlock_crc (s : State) :
    (s.resetBlock).crc = 0#16 := rfl
@[simp] theorem State.resetBlock_crca (s : State) :
    (s.resetBlock).crca = 0#8 := rfl
@[simp] theorem State.resetBlock_crcb (s : State) :
    (s.resetBlock).crcb = 0#8 := rfl
@[simp] theorem State.resetBlock_errcode (s : State) :
    (s.resetBlock).errcode = 0#3 := rfl
@[simp] theorem State.resetBlock_errstate (s : State) :
    (s.resetBlock).errstate = 0#5 := rfl
@[simp] theorem State.resetBlock_errOffset (s : State) :
    (s.resetBlock).errOffset = 0#32 := rfl
@[simp] theorem State.resetBlock_errInfo (s : State) :
    (s.resetBlock).errInfo = 0#32 := rfl
@[simp] theorem State.resetBlock_peerCrc (s : State) :
    (s.resetBlock).peerCrc = 0#16 := rfl
@[simp] theorem State.resetBlock_crcMatch (s : State) :
    (s.resetBlock).crcMatch = false := rfl
@[simp] theorem State.resetBlock_image (s : State) :
    (s.resetBlock).image = s.image := rfl
@[simp] theorem State.resetBlock_pins (s : State) :
    (s.resetBlock).pins = s.pins := rfl
@[simp] theorem State.resetBlock_rdata (s : State) :
    (s.resetBlock).rdata = s.rdata := rfl
@[simp] theorem State.resetBlock_cut (s : State) :
    (s.resetBlock).cut = (s.cut || s.phase ≠ .issue) := rfl
@[simp] theorem State.resetBlock_request (s : State) :
    (s.resetBlock).request = if s.phase = .issue then s.request else .outstanding := rfl
@[simp] theorem State.resetBlock_loop (s : State) :
    (s.resetBlock).loop = s.loop := rfl
@[simp] theorem State.resetBlock_script (s : State) :
    (s.resetBlock).script = s.script := rfl
@[simp] theorem State.resetBlock_cfg (s : State) :
    (s.resetBlock).cfg = s.cfg := rfl

/-! The ISSUE action (40_datapath_units.md rule R118). -/

@[simp] theorem State.issueFrame_state (pre : State → State) (frame : State → Word) (s : State) :
    (s.issueFrame pre frame).state = (pre s).state := rfl
@[simp] theorem State.issueFrame_phase (pre : State → State) (frame : State → Word) (s : State) :
    (s.issueFrame pre frame).phase = .req := rfl
@[simp] theorem State.issueFrame_pollhit (pre : State → State) (frame : State → Word) (s : State) :
    (s.issueFrame pre frame).pollhit = (pre s).pollhit := rfl
@[simp] theorem State.issueFrame_delay (pre : State → State) (frame : State → Word) (s : State) :
    (s.issueFrame pre frame).delay = (pre s).delay := rfl
@[simp] theorem State.issueFrame_txw (pre : State → State) (frame : State → Word) (s : State) :
    (s.issueFrame pre frame).txw = frame (pre s) := rfl
@[simp] theorem State.issueFrame_len (pre : State → State) (frame : State → Word) (s : State) :
    (s.issueFrame pre frame).len = (pre s).len := rfl
@[simp] theorem State.issueFrame_padlen (pre : State → State) (frame : State → Word) (s : State) :
    (s.issueFrame pre frame).padlen = (pre s).padlen := rfl
@[simp] theorem State.issueFrame_cursor (pre : State → State) (frame : State → Word) (s : State) :
    (s.issueFrame pre frame).cursor = (pre s).cursor := rfl
@[simp] theorem State.issueFrame_seed (pre : State → State) (frame : State → Word) (s : State) :
    (s.issueFrame pre frame).seed = (pre s).seed := rfl
@[simp] theorem State.issueFrame_crc (pre : State → State) (frame : State → Word) (s : State) :
    (s.issueFrame pre frame).crc = (pre s).crc := rfl
@[simp] theorem State.issueFrame_crca (pre : State → State) (frame : State → Word) (s : State) :
    (s.issueFrame pre frame).crca = (pre s).crca := rfl
@[simp] theorem State.issueFrame_crcb (pre : State → State) (frame : State → Word) (s : State) :
    (s.issueFrame pre frame).crcb = (pre s).crcb := rfl
@[simp] theorem State.issueFrame_errcode (pre : State → State) (frame : State → Word) (s : State) :
    (s.issueFrame pre frame).errcode = (pre s).errcode := rfl
@[simp] theorem State.issueFrame_errstate (pre : State → State) (frame : State → Word) (s : State) :
    (s.issueFrame pre frame).errstate = (pre s).errstate := rfl
@[simp] theorem State.issueFrame_errOffset (pre : State → State) (frame : State → Word) (s : State) :
    (s.issueFrame pre frame).errOffset = (pre s).errOffset := rfl
@[simp] theorem State.issueFrame_errInfo (pre : State → State) (frame : State → Word) (s : State) :
    (s.issueFrame pre frame).errInfo = (pre s).errInfo := rfl
@[simp] theorem State.issueFrame_peerCrc (pre : State → State) (frame : State → Word) (s : State) :
    (s.issueFrame pre frame).peerCrc = (pre s).peerCrc := rfl
@[simp] theorem State.issueFrame_crcMatch (pre : State → State) (frame : State → Word) (s : State) :
    (s.issueFrame pre frame).crcMatch = (pre s).crcMatch := rfl
@[simp] theorem State.issueFrame_image (pre : State → State) (frame : State → Word) (s : State) :
    (s.issueFrame pre frame).image = (pre s).image := rfl
@[simp] theorem State.issueFrame_pins (pre : State → State) (frame : State → Word) (s : State) :
    (s.issueFrame pre frame).pins = (pre s).pins := rfl
@[simp] theorem State.issueFrame_rdata (pre : State → State) (frame : State → Word) (s : State) :
    (s.issueFrame pre frame).rdata = (pre s).rdata := rfl
@[simp] theorem State.issueFrame_cut (pre : State → State) (frame : State → Word) (s : State) :
    (s.issueFrame pre frame).cut = (pre s).cut := rfl
@[simp] theorem State.issueFrame_script (pre : State → State) (frame : State → Word) (s : State) :
    (s.issueFrame pre frame).script = (pre s).script := rfl
@[simp] theorem State.issueFrame_request (pre : State → State) (frame : State → Word) (s : State) :
    (s.issueFrame pre frame).request = (pre s).request := rfl
@[simp] theorem State.issueFrame_loop (pre : State → State) (frame : State → Word) (s : State) :
    (s.issueFrame pre frame).loop = (pre s).loop := rfl
@[simp] theorem State.issueFrame_cfg (pre : State → State) (frame : State → Word) (s : State) :
    (s.issueFrame pre frame).cfg = (pre s).cfg := rfl

/-! A completion that only moves on (30_encoding.md rule R82). -/

@[simp] theorem State.goto_state (code : BitVec 5) (r : Word) (s : State) :
    (State.goto code r s).state = code := rfl
@[simp] theorem State.goto_phase (code : BitVec 5) (r : Word) (s : State) :
    (State.goto code r s).phase = s.phase := rfl
@[simp] theorem State.goto_pollhit (code : BitVec 5) (r : Word) (s : State) :
    (State.goto code r s).pollhit = s.pollhit := rfl
@[simp] theorem State.goto_delay (code : BitVec 5) (r : Word) (s : State) :
    (State.goto code r s).delay = s.delay := rfl
@[simp] theorem State.goto_txw (code : BitVec 5) (r : Word) (s : State) :
    (State.goto code r s).txw = s.txw := rfl
@[simp] theorem State.goto_len (code : BitVec 5) (r : Word) (s : State) :
    (State.goto code r s).len = s.len := rfl
@[simp] theorem State.goto_padlen (code : BitVec 5) (r : Word) (s : State) :
    (State.goto code r s).padlen = s.padlen := rfl
@[simp] theorem State.goto_cursor (code : BitVec 5) (r : Word) (s : State) :
    (State.goto code r s).cursor = s.cursor := rfl
@[simp] theorem State.goto_seed (code : BitVec 5) (r : Word) (s : State) :
    (State.goto code r s).seed = s.seed := rfl
@[simp] theorem State.goto_crc (code : BitVec 5) (r : Word) (s : State) :
    (State.goto code r s).crc = s.crc := rfl
@[simp] theorem State.goto_crca (code : BitVec 5) (r : Word) (s : State) :
    (State.goto code r s).crca = s.crca := rfl
@[simp] theorem State.goto_crcb (code : BitVec 5) (r : Word) (s : State) :
    (State.goto code r s).crcb = s.crcb := rfl
@[simp] theorem State.goto_errcode (code : BitVec 5) (r : Word) (s : State) :
    (State.goto code r s).errcode = s.errcode := rfl
@[simp] theorem State.goto_errstate (code : BitVec 5) (r : Word) (s : State) :
    (State.goto code r s).errstate = s.errstate := rfl
@[simp] theorem State.goto_errOffset (code : BitVec 5) (r : Word) (s : State) :
    (State.goto code r s).errOffset = s.errOffset := rfl
@[simp] theorem State.goto_errInfo (code : BitVec 5) (r : Word) (s : State) :
    (State.goto code r s).errInfo = s.errInfo := rfl
@[simp] theorem State.goto_peerCrc (code : BitVec 5) (r : Word) (s : State) :
    (State.goto code r s).peerCrc = s.peerCrc := rfl
@[simp] theorem State.goto_crcMatch (code : BitVec 5) (r : Word) (s : State) :
    (State.goto code r s).crcMatch = s.crcMatch := rfl
@[simp] theorem State.goto_image (code : BitVec 5) (r : Word) (s : State) :
    (State.goto code r s).image = s.image := rfl
@[simp] theorem State.goto_pins (code : BitVec 5) (r : Word) (s : State) :
    (State.goto code r s).pins = s.pins := rfl
@[simp] theorem State.goto_rdata (code : BitVec 5) (r : Word) (s : State) :
    (State.goto code r s).rdata = s.rdata := rfl
@[simp] theorem State.goto_cut (code : BitVec 5) (r : Word) (s : State) :
    (State.goto code r s).cut = s.cut := rfl
@[simp] theorem State.goto_script (code : BitVec 5) (r : Word) (s : State) :
    (State.goto code r s).script = s.script := rfl
@[simp] theorem State.goto_request (code : BitVec 5) (r : Word) (s : State) :
    (State.goto code r s).request = s.request := rfl
@[simp] theorem State.goto_loop (code : BitVec 5) (r : Word) (s : State) :
    (State.goto code r s).loop = s.loop := rfl
@[simp] theorem State.goto_cfg (code : BitVec 5) (r : Word) (s : State) :
    (State.goto code r s).cfg = s.cfg := rfl

/-! The completion of a poll (rules R130 and R161). -/

@[simp] theorem State.pollDone_state (ready : Word → Bool) (wait : BitVec 5) (r : Word) (s : State) :
    (State.pollDone ready wait r s).state = wait := rfl
@[simp] theorem State.pollDone_phase (ready : Word → Bool) (wait : BitVec 5) (r : Word) (s : State) :
    (State.pollDone ready wait r s).phase = s.phase := rfl
@[simp] theorem State.pollDone_pollhit (ready : Word → Bool) (wait : BitVec 5) (r : Word) (s : State) :
    (State.pollDone ready wait r s).pollhit = ready r := rfl
@[simp] theorem State.pollDone_delay (ready : Word → Bool) (wait : BitVec 5) (r : Word) (s : State) :
    (State.pollDone ready wait r s).delay = delayTicks s.cfg := rfl
@[simp] theorem State.pollDone_txw (ready : Word → Bool) (wait : BitVec 5) (r : Word) (s : State) :
    (State.pollDone ready wait r s).txw = s.txw := rfl
@[simp] theorem State.pollDone_len (ready : Word → Bool) (wait : BitVec 5) (r : Word) (s : State) :
    (State.pollDone ready wait r s).len = s.len := rfl
@[simp] theorem State.pollDone_padlen (ready : Word → Bool) (wait : BitVec 5) (r : Word) (s : State) :
    (State.pollDone ready wait r s).padlen = s.padlen := rfl
@[simp] theorem State.pollDone_cursor (ready : Word → Bool) (wait : BitVec 5) (r : Word) (s : State) :
    (State.pollDone ready wait r s).cursor = s.cursor := rfl
@[simp] theorem State.pollDone_seed (ready : Word → Bool) (wait : BitVec 5) (r : Word) (s : State) :
    (State.pollDone ready wait r s).seed = s.seed := rfl
@[simp] theorem State.pollDone_crc (ready : Word → Bool) (wait : BitVec 5) (r : Word) (s : State) :
    (State.pollDone ready wait r s).crc = s.crc := rfl
@[simp] theorem State.pollDone_crca (ready : Word → Bool) (wait : BitVec 5) (r : Word) (s : State) :
    (State.pollDone ready wait r s).crca = s.crca := rfl
@[simp] theorem State.pollDone_crcb (ready : Word → Bool) (wait : BitVec 5) (r : Word) (s : State) :
    (State.pollDone ready wait r s).crcb = s.crcb := rfl
@[simp] theorem State.pollDone_errcode (ready : Word → Bool) (wait : BitVec 5) (r : Word) (s : State) :
    (State.pollDone ready wait r s).errcode = s.errcode := rfl
@[simp] theorem State.pollDone_errstate (ready : Word → Bool) (wait : BitVec 5) (r : Word) (s : State) :
    (State.pollDone ready wait r s).errstate = s.errstate := rfl
@[simp] theorem State.pollDone_errOffset (ready : Word → Bool) (wait : BitVec 5) (r : Word) (s : State) :
    (State.pollDone ready wait r s).errOffset = s.errOffset := rfl
@[simp] theorem State.pollDone_errInfo (ready : Word → Bool) (wait : BitVec 5) (r : Word) (s : State) :
    (State.pollDone ready wait r s).errInfo = s.errInfo := rfl
@[simp] theorem State.pollDone_peerCrc (ready : Word → Bool) (wait : BitVec 5) (r : Word) (s : State) :
    (State.pollDone ready wait r s).peerCrc = s.peerCrc := rfl
@[simp] theorem State.pollDone_crcMatch (ready : Word → Bool) (wait : BitVec 5) (r : Word) (s : State) :
    (State.pollDone ready wait r s).crcMatch = s.crcMatch := rfl
@[simp] theorem State.pollDone_image (ready : Word → Bool) (wait : BitVec 5) (r : Word) (s : State) :
    (State.pollDone ready wait r s).image = s.image := rfl
@[simp] theorem State.pollDone_pins (ready : Word → Bool) (wait : BitVec 5) (r : Word) (s : State) :
    (State.pollDone ready wait r s).pins = s.pins := rfl
@[simp] theorem State.pollDone_rdata (ready : Word → Bool) (wait : BitVec 5) (r : Word) (s : State) :
    (State.pollDone ready wait r s).rdata = s.rdata := rfl
@[simp] theorem State.pollDone_cut (ready : Word → Bool) (wait : BitVec 5) (r : Word) (s : State) :
    (State.pollDone ready wait r s).cut = s.cut := rfl
@[simp] theorem State.pollDone_script (ready : Word → Bool) (wait : BitVec 5) (r : Word) (s : State) :
    (State.pollDone ready wait r s).script = s.script := rfl
@[simp] theorem State.pollDone_request (ready : Word → Bool) (wait : BitVec 5) (r : Word) (s : State) :
    (State.pollDone ready wait r s).request = s.request := rfl
@[simp] theorem State.pollDone_loop (ready : Word → Bool) (wait : BitVec 5) (r : Word) (s : State) :
    (State.pollDone ready wait r s).loop = s.loop := rfl
@[simp] theorem State.pollDone_cfg (ready : Word → Bool) (wait : BitVec 5) (r : Word) (s : State) :
    (State.pollDone ready wait r s).cfg = s.cfg := rfl

/-! The completion of a header frame (rule R133). -/

@[simp] theorem State.hdrDone_state (r : Word) (s : State) :
    (State.hdrDone r s).state = (if s.cursor + 2#32 = 0xC0#32 then 5#5 else 4#5) := rfl
@[simp] theorem State.hdrDone_phase (r : Word) (s : State) :
    (State.hdrDone r s).phase = s.phase := rfl
@[simp] theorem State.hdrDone_pollhit (r : Word) (s : State) :
    (State.hdrDone r s).pollhit = s.pollhit := rfl
@[simp] theorem State.hdrDone_delay (r : Word) (s : State) :
    (State.hdrDone r s).delay = s.delay := rfl
@[simp] theorem State.hdrDone_txw (r : Word) (s : State) :
    (State.hdrDone r s).txw = s.txw := rfl
@[simp] theorem State.hdrDone_len (r : Word) (s : State) :
    (State.hdrDone r s).len = s.len := rfl
@[simp] theorem State.hdrDone_padlen (r : Word) (s : State) :
    (State.hdrDone r s).padlen = s.padlen := rfl
@[simp] theorem State.hdrDone_cursor (r : Word) (s : State) :
    (State.hdrDone r s).cursor = s.cursor + 2#32 := rfl
@[simp] theorem State.hdrDone_seed (r : Word) (s : State) :
    (State.hdrDone r s).seed = s.seed := rfl
@[simp] theorem State.hdrDone_crc (r : Word) (s : State) :
    (State.hdrDone r s).crc = s.crc := rfl
@[simp] theorem State.hdrDone_crca (r : Word) (s : State) :
    (State.hdrDone r s).crca = s.crca := rfl
@[simp] theorem State.hdrDone_crcb (r : Word) (s : State) :
    (State.hdrDone r s).crcb = s.crcb := rfl
@[simp] theorem State.hdrDone_errcode (r : Word) (s : State) :
    (State.hdrDone r s).errcode = s.errcode := rfl
@[simp] theorem State.hdrDone_errstate (r : Word) (s : State) :
    (State.hdrDone r s).errstate = s.errstate := rfl
@[simp] theorem State.hdrDone_errOffset (r : Word) (s : State) :
    (State.hdrDone r s).errOffset = s.errOffset := rfl
@[simp] theorem State.hdrDone_errInfo (r : Word) (s : State) :
    (State.hdrDone r s).errInfo = s.errInfo := rfl
@[simp] theorem State.hdrDone_peerCrc (r : Word) (s : State) :
    (State.hdrDone r s).peerCrc = s.peerCrc := rfl
@[simp] theorem State.hdrDone_crcMatch (r : Word) (s : State) :
    (State.hdrDone r s).crcMatch = s.crcMatch := rfl
@[simp] theorem State.hdrDone_image (r : Word) (s : State) :
    (State.hdrDone r s).image = s.image := rfl
@[simp] theorem State.hdrDone_pins (r : Word) (s : State) :
    (State.hdrDone r s).pins = s.pins := rfl
@[simp] theorem State.hdrDone_rdata (r : Word) (s : State) :
    (State.hdrDone r s).rdata = s.rdata := rfl
@[simp] theorem State.hdrDone_cut (r : Word) (s : State) :
    (State.hdrDone r s).cut = s.cut := rfl
@[simp] theorem State.hdrDone_script (r : Word) (s : State) :
    (State.hdrDone r s).script = s.script := rfl
@[simp] theorem State.hdrDone_request (r : Word) (s : State) :
    (State.hdrDone r s).request = s.request := rfl
@[simp] theorem State.hdrDone_loop (r : Word) (s : State) :
    (State.hdrDone r s).loop = s.loop := rfl
@[simp] theorem State.hdrDone_cfg (r : Word) (s : State) :
    (State.hdrDone r s).cfg = s.cfg := rfl

/-! The completion of LEN (rule R144). -/

@[simp] theorem State.lenDone_state (r : Word) (s : State) :
    (State.lenDone r s).state = (if s.cursor < s.padlen then 11#5 else 12#5) := rfl
@[simp] theorem State.lenDone_phase (r : Word) (s : State) :
    (State.lenDone r s).phase = s.phase := rfl
@[simp] theorem State.lenDone_pollhit (r : Word) (s : State) :
    (State.lenDone r s).pollhit = s.pollhit := rfl
@[simp] theorem State.lenDone_delay (r : Word) (s : State) :
    (State.lenDone r s).delay = s.delay := rfl
@[simp] theorem State.lenDone_txw (r : Word) (s : State) :
    (State.lenDone r s).txw = s.txw := rfl
@[simp] theorem State.lenDone_len (r : Word) (s : State) :
    (State.lenDone r s).len = s.len := rfl
@[simp] theorem State.lenDone_padlen (r : Word) (s : State) :
    (State.lenDone r s).padlen = s.padlen := rfl
@[simp] theorem State.lenDone_cursor (r : Word) (s : State) :
    (State.lenDone r s).cursor = s.cursor := rfl
@[simp] theorem State.lenDone_seed (r : Word) (s : State) :
    (State.lenDone r s).seed = s.seed := rfl
@[simp] theorem State.lenDone_crc (r : Word) (s : State) :
    (State.lenDone r s).crc = 0xC387#16 := rfl
@[simp] theorem State.lenDone_crca (r : Word) (s : State) :
    (State.lenDone r s).crca = s.crca := rfl
@[simp] theorem State.lenDone_crcb (r : Word) (s : State) :
    (State.lenDone r s).crcb = rxParam r := rfl
@[simp] theorem State.lenDone_errcode (r : Word) (s : State) :
    (State.lenDone r s).errcode = s.errcode := rfl
@[simp] theorem State.lenDone_errstate (r : Word) (s : State) :
    (State.lenDone r s).errstate = s.errstate := rfl
@[simp] theorem State.lenDone_errOffset (r : Word) (s : State) :
    (State.lenDone r s).errOffset = s.errOffset := rfl
@[simp] theorem State.lenDone_errInfo (r : Word) (s : State) :
    (State.lenDone r s).errInfo = s.errInfo := rfl
@[simp] theorem State.lenDone_peerCrc (r : Word) (s : State) :
    (State.lenDone r s).peerCrc = s.peerCrc := rfl
@[simp] theorem State.lenDone_crcMatch (r : Word) (s : State) :
    (State.lenDone r s).crcMatch = s.crcMatch := rfl
@[simp] theorem State.lenDone_image (r : Word) (s : State) :
    (State.lenDone r s).image = s.image := rfl
@[simp] theorem State.lenDone_pins (r : Word) (s : State) :
    (State.lenDone r s).pins = s.pins := rfl
@[simp] theorem State.lenDone_rdata (r : Word) (s : State) :
    (State.lenDone r s).rdata = s.rdata := rfl
@[simp] theorem State.lenDone_cut (r : Word) (s : State) :
    (State.lenDone r s).cut = s.cut := rfl
@[simp] theorem State.lenDone_script (r : Word) (s : State) :
    (State.lenDone r s).script = s.script := rfl
@[simp] theorem State.lenDone_request (r : Word) (s : State) :
    (State.lenDone r s).request = s.request := rfl
@[simp] theorem State.lenDone_loop (r : Word) (s : State) :
    (State.lenDone r s).loop = s.loop := rfl
@[simp] theorem State.lenDone_cfg (r : Word) (s : State) :
    (State.lenDone r s).cfg = s.cfg := rfl

/-! PAY's pre-actions (rule R150). -/

@[simp] theorem State.payPre_state (s : State) : s.payPre.state = s.state := rfl
@[simp] theorem State.payPre_phase (s : State) : s.payPre.phase = s.phase := rfl
@[simp] theorem State.payPre_pollhit (s : State) : s.payPre.pollhit = s.pollhit := rfl
@[simp] theorem State.payPre_delay (s : State) : s.payPre.delay = s.delay := rfl
@[simp] theorem State.payPre_txw (s : State) : s.payPre.txw = s.txw := rfl
@[simp] theorem State.payPre_len (s : State) : s.payPre.len = s.len := rfl
@[simp] theorem State.payPre_padlen (s : State) : s.payPre.padlen = s.padlen := rfl
@[simp] theorem State.payPre_cursor (s : State) : s.payPre.cursor = s.cursor := rfl
@[simp] theorem State.payPre_seed (s : State) : s.payPre.seed = lcgStep s.seed := rfl
@[simp] theorem State.payPre_crc (s : State) : s.payPre.crc = crcWord s.crc (s.payWord s.cursor) := rfl
@[simp] theorem State.payPre_crca (s : State) : s.payPre.crca = s.crca := rfl
@[simp] theorem State.payPre_crcb (s : State) : s.payPre.crcb = s.crcb := rfl
@[simp] theorem State.payPre_errcode (s : State) : s.payPre.errcode = s.errcode := rfl
@[simp] theorem State.payPre_errstate (s : State) : s.payPre.errstate = s.errstate := rfl
@[simp] theorem State.payPre_errOffset (s : State) : s.payPre.errOffset = s.errOffset := rfl
@[simp] theorem State.payPre_errInfo (s : State) : s.payPre.errInfo = s.errInfo := rfl
@[simp] theorem State.payPre_peerCrc (s : State) : s.payPre.peerCrc = s.peerCrc := rfl
@[simp] theorem State.payPre_crcMatch (s : State) : s.payPre.crcMatch = s.crcMatch := rfl
@[simp] theorem State.payPre_image (s : State) : s.payPre.image = s.image := rfl
@[simp] theorem State.payPre_pins (s : State) : s.payPre.pins = s.pins := rfl
@[simp] theorem State.payPre_rdata (s : State) : s.payPre.rdata = s.rdata := rfl
@[simp] theorem State.payPre_cut (s : State) : s.payPre.cut = s.cut := rfl
@[simp] theorem State.payPre_script (s : State) : s.payPre.script = s.script := rfl
@[simp] theorem State.payPre_request (s : State) : s.payPre.request = s.request := rfl
@[simp] theorem State.payPre_loop (s : State) : s.payPre.loop = s.loop := rfl
@[simp] theorem State.payPre_cfg (s : State) : s.payPre.cfg = s.cfg := rfl

/-! The completion of FIN_CRC (rule R164). -/

@[simp] theorem State.crcDone_state (r : Word) (s : State) :
    (State.crcDone r s).state = 18#5 := rfl
@[simp] theorem State.crcDone_phase (r : Word) (s : State) :
    (State.crcDone r s).phase = s.phase := rfl
@[simp] theorem State.crcDone_pollhit (r : Word) (s : State) :
    (State.crcDone r s).pollhit = s.pollhit := rfl
@[simp] theorem State.crcDone_delay (r : Word) (s : State) :
    (State.crcDone r s).delay = s.delay := rfl
@[simp] theorem State.crcDone_txw (r : Word) (s : State) :
    (State.crcDone r s).txw = s.txw := rfl
@[simp] theorem State.crcDone_len (r : Word) (s : State) :
    (State.crcDone r s).len = s.len := rfl
@[simp] theorem State.crcDone_padlen (r : Word) (s : State) :
    (State.crcDone r s).padlen = s.padlen := rfl
@[simp] theorem State.crcDone_cursor (r : Word) (s : State) :
    (State.crcDone r s).cursor = s.cursor := rfl
@[simp] theorem State.crcDone_seed (r : Word) (s : State) :
    (State.crcDone r s).seed = s.seed := rfl
@[simp] theorem State.crcDone_crc (r : Word) (s : State) :
    (State.crcDone r s).crc = s.crc := rfl
@[simp] theorem State.crcDone_crca (r : Word) (s : State) :
    (State.crcDone r s).crca = s.crca := rfl
@[simp] theorem State.crcDone_crcb (r : Word) (s : State) :
    (State.crcDone r s).crcb = s.crcb := rfl
@[simp] theorem State.crcDone_errcode (r : Word) (s : State) :
    (State.crcDone r s).errcode = s.errcode := rfl
@[simp] theorem State.crcDone_errstate (r : Word) (s : State) :
    (State.crcDone r s).errstate = s.errstate := rfl
@[simp] theorem State.crcDone_errOffset (r : Word) (s : State) :
    (State.crcDone r s).errOffset = s.errOffset := rfl
@[simp] theorem State.crcDone_errInfo (r : Word) (s : State) :
    (State.crcDone r s).errInfo = s.errInfo := rfl
@[simp] theorem State.crcDone_peerCrc (r : Word) (s : State) :
    (State.crcDone r s).peerCrc = rxHi r := rfl
@[simp] theorem State.crcDone_crcMatch (r : Word) (s : State) :
    (State.crcDone r s).crcMatch = (rxHi r == s.crc) := rfl
@[simp] theorem State.crcDone_image (r : Word) (s : State) :
    (State.crcDone r s).image = s.image := rfl
@[simp] theorem State.crcDone_pins (r : Word) (s : State) :
    (State.crcDone r s).pins = s.pins := rfl
@[simp] theorem State.crcDone_rdata (r : Word) (s : State) :
    (State.crcDone r s).rdata = s.rdata := rfl
@[simp] theorem State.crcDone_cut (r : Word) (s : State) :
    (State.crcDone r s).cut = s.cut := rfl
@[simp] theorem State.crcDone_script (r : Word) (s : State) :
    (State.crcDone r s).script = s.script := rfl
@[simp] theorem State.crcDone_request (r : Word) (s : State) :
    (State.crcDone r s).request = s.request := rfl
@[simp] theorem State.crcDone_loop (r : Word) (s : State) :
    (State.crcDone r s).loop = s.loop := rfl
@[simp] theorem State.crcDone_cfg (r : Word) (s : State) :
    (State.crcDone r s).cfg = s.cfg := rfl

end Sys2Proof.Machine
end

