-- ==== Sys2Proof/Laws/Word.lean ====
section
/-!
SUPPORT. The value of a word written as a concatenation of its fields (00_scope.md rule R11).
-/

namespace Sys2Proof

theorem toNat_halves (a b : Half) : (a ++ b : Word).toNat = a.toNat * 65536 + b.toNat := by
  refine (BitVec.toNat_append a b).trans ?_
  rw [← Nat.shiftLeft_add_eq_or_of_lt b.isLt, Nat.shiftLeft_eq]

theorem toNat_bytes2 (a b : Byte) : (a ++ b : Half).toNat = a.toNat * 256 + b.toNat := by
  refine (BitVec.toNat_append a b).trans ?_
  rw [← Nat.shiftLeft_add_eq_or_of_lt b.isLt, Nat.shiftLeft_eq]

theorem toNat_half_bytes (a : Half) (b c : Byte) :
    (a ++ b ++ c : Word).toNat = a.toNat * 65536 + b.toNat * 256 + c.toNat := by
  refine (BitVec.toNat_append (a ++ b) c).trans ?_
  rw [← Nat.shiftLeft_add_eq_or_of_lt c.isLt, Nat.shiftLeft_eq, BitVec.toNat_append a b,
    ← Nat.shiftLeft_add_eq_or_of_lt b.isLt, Nat.shiftLeft_eq]
  omega

theorem toNat_bytes4 (a b c d : Byte) :
    (a ++ b ++ c ++ d : Word).toNat =
      a.toNat * 16777216 + b.toNat * 65536 + c.toNat * 256 + d.toNat := by
  refine (BitVec.toNat_append (a ++ b ++ c) d).trans ?_
  rw [← Nat.shiftLeft_add_eq_or_of_lt d.isLt, Nat.shiftLeft_eq, BitVec.toNat_append (a ++ b) c,
    ← Nat.shiftLeft_add_eq_or_of_lt c.isLt, Nat.shiftLeft_eq, BitVec.toNat_append a b,
    ← Nat.shiftLeft_add_eq_or_of_lt b.isLt, Nat.shiftLeft_eq]
  omega

/-- The two low bits are 0 exactly at a multiple of 4. -/
theorem extract_two_eq_zero_iff {n : Nat} (w : BitVec n) :
    w.extractLsb' 0 2 = 0#2 ↔ w.toNat % 4 = 0 := by
  rw [← BitVec.toNat_inj]; simp [BitVec.extractLsb'_toNat]

end Sys2Proof
end

