-- ==== Sys2Proof/Laws/Exchange.lean ====
section
/-!
SUPPORT. What the exchange step, the error entry, the wait step and the decoders can do, said once.
-/

namespace Sys2Proof.Machine

variable {pre : State → State} {frame : State → Word} {complete : Word → State → State}
variable {s t : State}

theorem exchange_issue (h : s.phase = .issue) :
    exchange pre frame complete s = .next (s.issueFrame pre frame) := by
  simp [exchange, h]

theorem exchange_accepted (h : s.phase = .req) (hr : s.pins.txReady = true) :
    exchange pre frame complete s = .next { s with phase := .rsp } := by
  simp [exchange, h, hr]

theorem exchange_offered (h : s.phase = .req) (hr : s.pins.txReady = false) :
    exchange pre frame complete s = .next s := by
  simp [exchange, h, hr]

theorem exchange_pending (h : s.phase = .rsp) (hv : s.pins.rxValid = false) :
    exchange pre frame complete s = .next s := by
  simp [exchange, h, hv]

theorem exchange_failed (h : s.phase = .rsp) (hv : s.pins.rxValid = true)
    (hf : s.pins.rxFail = true) :
    exchange pre frame complete s =
      .next ({ s with phase := .issue }.raiseError 2#3 s.cursor 0#32) := by
  simp [exchange, State.completeExchange, h, hv, hf, Err.transport]

theorem exchange_completed (h : s.phase = .rsp) (hv : s.pins.rxValid = true)
    (hf : s.pins.rxFail = false) :
    exchange pre frame complete s = .next (complete s.pins.rxWord { s with phase := .issue }) := by
  simp [exchange, State.completeExchange, h, hv, hf]

/-- Everything an exchange operation can do: if it answers a next state, one of these six cases
holds. -/
theorem exchange_cases (h : exchange pre frame complete s = .next t) :
    (s.phase = .issue ∧ t = s.issueFrame pre frame) ∨
    (s.phase = .req ∧ s.pins.txReady = true ∧ t = { s with phase := .rsp }) ∨
    (s.phase = .req ∧ s.pins.txReady = false ∧ t = s) ∨
    (s.phase = .rsp ∧ s.pins.rxValid = false ∧ t = s) ∨
    (s.phase = .rsp ∧ s.pins.rxValid = true ∧ s.pins.rxFail = true ∧
      t = { s with phase := .issue }.raiseError 2#3 s.cursor 0#32) ∨
    (s.phase = .rsp ∧ s.pins.rxValid = true ∧ s.pins.rxFail = false ∧
      t = complete s.pins.rxWord { s with phase := .issue }) := by
  cases hp : s.phase with
  | issue => rw [exchange_issue hp] at h; cases h; exact .inl ⟨rfl, rfl⟩
  | req =>
    cases hr : s.pins.txReady
    · rw [exchange_offered hp hr] at h; cases h; exact .inr (.inr (.inl ⟨rfl, rfl, rfl⟩))
    · rw [exchange_accepted hp hr] at h; cases h; exact .inr (.inl ⟨rfl, rfl, rfl⟩)
  | rsp =>
    cases hv : s.pins.rxValid
    · rw [exchange_pending hp hv] at h; cases h; exact .inr (.inr (.inr (.inl ⟨rfl, rfl, rfl⟩)))
    · cases hf : s.pins.rxFail
      · rw [exchange_completed hp hv hf] at h; cases h
        exact .inr (.inr (.inr (.inr (.inr ⟨rfl, rfl, rfl, rfl⟩))))
      · rw [exchange_failed hp hv hf] at h; cases h
        exact .inr (.inr (.inr (.inr (.inl ⟨rfl, rfl, rfl, rfl⟩))))

/-- An exchange operation always answers a next state. -/
theorem exchange_answers (s : State) : ∃ t, exchange pre frame complete s = .next t := by
  unfold exchange
  cases s.phase <;> exact ⟨_, rfl⟩

theorem State.waitStep_counts (ready again : BitVec 5) (h : s.delay ≠ 0#32) :
    s.waitStep ready again = { s with delay := s.delay - 1#32 } := by
  simp [State.waitStep, h]

theorem State.waitStep_leaves (ready again : BitVec 5) (h : s.delay = 0#32) :
    s.waitStep ready again = { s with state := if s.pollhit then ready else again } := by
  simp [State.waitStep, h]

theorem busy_eq_false_iff :
    s.busy = false ↔ s.state = 0#5 ∨ s.state = 18#5 ∨ s.state = 19#5 := by
  simp only [State.busy, Bool.not_eq_false', Bool.or_eq_true, beq_iff_eq, or_assoc]

theorem busy_eq_true_iff :
    s.busy = true ↔ s.state ≠ 0#5 ∧ s.state ≠ 18#5 ∧ s.state ≠ 19#5 := by
  simp only [State.busy, Bool.not_eq_true', Bool.or_eq_false_iff, beq_eq_false_iff_ne, and_assoc]

theorem preconditionOK_iff (l : Word) :
    preconditionOK l = true ↔ 0xC0 ≤ l.toNat ∧ l.toNat ≤ 0x40000 := by
  simp [preconditionOK, BitVec.le_def]

/-- What a host access decodes to: a read, a START or a LEN write, each with its exact form. -/
theorem decodeAccess_ok {a : Access} {i : Instr} (h : decodeAccess a = .ok i) :
    a.offset.toNat < 64 ∧ a.size = 4 ∧ a.offset.extractLsb' 0 2 = 0#2 ∧
    ((a.write = false ∧ i = .regRead (a.offset.setWidth 6)) ∨
     (a.write = true ∧ a.offset = 0#32 ∧ a.data.getLsbD 0 = true ∧ i = .start) ∨
     (a.write = true ∧ a.offset = 8#32 ∧ i = .lenWrite a.data)) := by
  unfold decodeAccess at h
  split at h; · cases h
  rename_i h1
  split at h; · cases h
  rename_i h2
  split at h; · cases h
  rename_i h3
  refine ⟨Nat.lt_of_not_le h1, not_not.1 h2, not_not.1 h3, ?_⟩
  split at h
  · rename_i hw; cases h; exact .inl ⟨hw, rfl⟩
  rename_i hw
  replace hw : a.write = true := by simpa using hw
  split at h
  · rename_i ho
    split at h
    · rename_i hd; cases h; exact .inr (.inl ⟨hw, ho, hd, rfl⟩)
    · cases h
  split at h
  · rename_i ho; cases h; exact .inr (.inr ⟨hw, ho, rfl⟩)
  · cases h

/-- A CTRL write with bit 0 = 1 is START, whatever its other bits (R83). -/
theorem decodeAccess_start (v : Word) (h : v.getLsbD 0 = true) :
    decodeAccess { write := true, size := 4, offset := 0#32, data := v } = .ok .start := by
  unfold decodeAccess
  rw [if_neg (by simp), if_neg (by simp), if_neg (by simp), if_neg (by simp), if_pos rfl,
    if_pos h]

/-- A CTRL write with bit 0 = 0 is ignored (R26). -/
theorem decodeAccess_ctrl_zero (v : Word) (h : v.getLsbD 0 = false) :
    decodeAccess { write := true, size := 4, offset := 0#32, data := v } =
      .error (.ignoredWrite 0#32) := by
  unfold decodeAccess
  rw [if_neg (by simp), if_neg (by simp), if_neg (by simp), if_neg (by simp), if_pos rfl,
    if_neg (by rw [h]; decide)]

/-- An aligned read inside the window is REG_READ (R174). -/
theorem decodeAccess_read (off v : Word) (h : off.toNat < 64) (h4 : off.toNat % 4 = 0) :
    decodeAccess { write := false, size := 4, offset := off, data := v } =
      .ok (.regRead (off.setWidth 6)) := by
  unfold decodeAccess
  rw [if_neg (Nat.not_le.2 h), if_neg (by simp),
    if_neg (by rw [not_not, extract_two_eq_zero_iff]; exact h4), if_pos rfl]

/-- A write to any other register or reserved offset is ignored (R37). -/
theorem decodeAccess_ignored (off v : Word) (h : off.toNat < 64) (h4 : off.toNat % 4 = 0)
    (h0 : off ≠ 0#32) (h8 : off ≠ 8#32) :
    decodeAccess { write := true, size := 4, offset := off, data := v } =
      .error (.ignoredWrite off) := by
  unfold decodeAccess
  rw [if_neg (Nat.not_le.2 h), if_neg (by simp),
    if_neg (by rw [not_not, extract_two_eq_zero_iff]; exact h4), if_neg (by simp), if_neg h0,
    if_neg h8]

/-- The moves of a state whose script is not used up are the script. -/
theorem State.moves_of_script {m : Input} {rest : List Input} (h : s.script = m :: rest) :
    s.moves = m :: rest := by
  simp only [State.moves, h]

/-- Everything a step can do, by the agents' first move. -/
theorem step_cases (s : State) :
    (s.moves = [] ∧ step s = blockCycle Pins.quiet s) ∨
    ∃ m rest, s.moves = m :: rest ∧ step s = applyInput m { s with script := rest } := by
  unfold step nextTransition
  cases h : s.moves with
  | nil => exact .inl ⟨rfl, rfl⟩
  | cons m rest => exact .inr ⟨m, rest, rfl, rfl⟩

/-- A step takes the first of the agents' moves. -/
theorem step_of_moves {m : Input} {rest : List Input} (h : s.moves = m :: rest) :
    step s = applyInput m { s with script := rest } := by
  unfold step nextTransition
  rw [h]

/-- A step without a move is a quiet block cycle. -/
theorem step_of_no_moves (h : s.moves = []) : step s = blockCycle Pins.quiet s := by
  unfold step nextTransition
  rw [h]

end Sys2Proof.Machine
end

