-- ==== Sys2Proof/Laws/Memory.lean ====
section
/-!
SUPPORT. The image space: a read after a write, and that every memory operation keeps the canonical
form.
-/

namespace Sys2Proof.Machine

theorem Memory.read_write_same (m : Memory) (a : Nat) (b : Byte) (h : Memory.wf m) :
    Memory.read (Memory.write m a b) a = b := by
  induction m with
  | nil => by_cases hb : b = Memory.unlisted <;> simp [Memory.write, Memory.read, hb]
  | cons c m ih =>
    obtain ⟨k, v⟩ := c
    obtain ⟨hp, hv⟩ := h
    rw [List.pairwise_cons] at hp
    have hm : Memory.wf m := ⟨hp.2, fun c hc => hv c (List.mem_cons_of_mem _ hc)⟩
    have absent : ∀ l : Memory, (∀ c ∈ l, a < c.1) → Memory.read l a = Memory.unlisted := by
      intro l hl
      induction l with
      | nil => rfl
      | cons d l ihl =>
        have h1 : a ≠ d.1 := Nat.ne_of_lt (hl d (by simp))
        simp only [Memory.read, h1, if_false]
        exact ihl fun c hc => hl c (List.mem_cons_of_mem _ hc)
    by_cases h1 : a < k
    · have hk : Memory.read ((k, v) :: m) a = Memory.unlisted := absent _ (by
        intro c hc
        rcases List.mem_cons.1 hc with rfl | hc
        · exact h1
        · exact Nat.lt_trans h1 (hp.1 c hc))
      by_cases hb : b = Memory.unlisted
      · simp only [Memory.write, h1, if_true, hb, hk]
      · simp [Memory.write, h1, hb, Memory.read]
    · by_cases h2 : a = k
      · subst h2
        by_cases hb : b = Memory.unlisted
        · simpa [Memory.write, hb] using absent m hp.1
        · simp [Memory.write, hb, Memory.read]
      · simp [Memory.write, h1, h2, Memory.read, ih hm]

theorem Memory.read_write_other (m : Memory) (a x : Nat) (b : Byte) (h : x ≠ a) :
    Memory.read (Memory.write m a b) x = Memory.read m x := by
  induction m with
  | nil => by_cases hb : b = Memory.unlisted <;> simp [Memory.write, Memory.read, hb, h]
  | cons c m ih =>
    obtain ⟨k, v⟩ := c
    by_cases h1 : a < k
    · by_cases hb : b = Memory.unlisted <;> simp [Memory.write, Memory.read, h1, hb, h]
    · by_cases h2 : a = k
      · subst h2
        by_cases hb : b = Memory.unlisted <;> simp [Memory.write, Memory.read, hb, h]
      · simp [Memory.write, h1, h2, Memory.read, ih]

theorem Memory.mem_write (m : Memory) (a : Nat) (b : Byte) (c : Host.Cell)
    (h : c ∈ Memory.write m a b) : c ∈ m ∨ (c = (a, b) ∧ b ≠ Memory.unlisted) := by
  induction m with
  | nil =>
    by_cases hb : b = Memory.unlisted
    · simp [Memory.write, hb] at h
    · simp [Memory.write, hb] at h; exact .inr ⟨h, hb⟩
  | cons d m ih =>
    obtain ⟨k, v⟩ := d
    by_cases h1 : a < k
    · by_cases hb : b = Memory.unlisted
      · simp only [Memory.write, h1, hb, if_true] at h; exact .inl h
      · simp only [Memory.write, h1, hb, if_true, if_false, List.mem_cons] at h
        rcases h with rfl | h
        · exact .inr ⟨rfl, hb⟩
        · exact .inl (List.mem_cons.2 h)
    · by_cases h2 : a = k
      · by_cases hb : b = Memory.unlisted
        · simp only [Memory.write, h2, hb, if_true, lt_irrefl, if_false] at h
          exact .inl (List.mem_cons_of_mem _ h)
        · simp only [Memory.write, h2, hb, if_true, if_false, lt_irrefl, List.mem_cons] at h
          rcases h with rfl | h
          · exact .inr ⟨by rw [h2], hb⟩
          · exact .inl (List.mem_cons_of_mem _ h)
      · simp only [Memory.write, h1, h2, if_false, List.mem_cons] at h
        rcases h with rfl | h
        · exact .inl (by simp)
        · rcases ih h with h | h
          · exact .inl (List.mem_cons_of_mem _ h)
          · exact .inr h

/-- A write inside the space keeps the canonical form. -/
theorem Memory.write_wf (m : Memory) (a : Nat) (b : Byte) (h : Memory.wf m) (ha : a < imageSize) :
    Memory.wf (Memory.write m a b) := by
  constructor
  · induction m with
    | nil => by_cases hb : b = Memory.unlisted <;> simp [Memory.write, hb]
    | cons c m ih =>
      obtain ⟨k, v⟩ := c
      obtain ⟨hp, hv⟩ := h
      have hp' := List.pairwise_cons.1 hp
      have hm : Memory.wf m := ⟨hp'.2, fun c hc => hv c (List.mem_cons_of_mem _ hc)⟩
      by_cases h1 : a < k
      · by_cases hb : b = Memory.unlisted
        · simpa [Memory.write, h1, hb] using hp
        · simp only [Memory.write, h1, hb, if_true, if_false]
          refine List.pairwise_cons.2 ⟨?_, hp⟩
          intro c hc
          rcases List.mem_cons.1 hc with rfl | hc
          · exact h1
          · exact Nat.lt_trans h1 (hp'.1 c hc)
      · by_cases h2 : a = k
        · subst h2
          by_cases hb : b = Memory.unlisted
          · simpa [Memory.write, hb] using hp'.2
          · simp only [Memory.write, lt_irrefl, hb, if_true, if_false]
            exact List.pairwise_cons.2 ⟨hp'.1, hp'.2⟩
        · simp only [Memory.write, h1, h2, if_false]
          refine List.pairwise_cons.2 ⟨?_, ih hm⟩
          intro c hc
          rcases Memory.mem_write m a b c hc with hc | ⟨rfl, -⟩
          · exact hp'.1 c hc
          · exact Nat.lt_of_le_of_ne (Nat.le_of_not_lt h1) (fun e => h2 e.symm)
  · intro c hc
    rcases Memory.mem_write m a b c hc with hc | ⟨rfl, hb⟩
    · exact h.2 c hc
    · exact ⟨hb, ha⟩

/-- The image space of the reset state is in canonical form. -/
theorem State.reset_image_wf : Memory.wf State.reset.image := by
  simp [State.reset, Memory.wf]

/-- A host write to the image space keeps the canonical form. -/
theorem hostImageWrite_wf (off : Nat) (b : Byte) (s t : State) (h : Memory.wf s.image)
    (ht : hostImageWrite off b s = .next t) : Memory.wf t.image := by
  unfold hostImageWrite at ht
  split at ht
  · cases ht
  · rename_i hoff
    split at ht
    · cases ht
    · cases ht
      exact Memory.write_wf _ _ _ h (Nat.lt_of_not_le hoff)

/-- A reset cycle keeps the image space. -/
theorem State.resetBlock_wf (s : State) (h : Memory.wf s.image) : Memory.wf s.resetBlock.image := h

end Sys2Proof.Machine
end

