-- ==== Sys2Proof/Laws/PerInstr.lean ====
section
/-!
SUPPORT. The shape of every operation's selecting word, one lemma per constructor.
-/

namespace Sys2Proof.Laws.EncodeShape

/-- A well-formed operation is selected by a STATE code below 20 (30_encoding.md rule R81) or by a
32-bit access at a multiple of 4 inside the window (10_state.md rule R38). -/
def Statement (i : Instr) : Prop :=
  i.wf = true →
    match encode i with
    | .state c => c.toNat < 20
    | .access a => a.size = 4 ∧ a.offset.toNat < 64 ∧ a.offset.extractLsb' 0 2 = 0#2

theorem idle : Statement .idle := fun _ => (by decide : (0#5).toNat < 20)
theorem hsPoll : Statement .hsPoll := fun _ => (by decide : (1#5).toNat < 20)
theorem hsWait : Statement .hsWait := fun _ => (by decide : (2#5).toNat < 20)
theorem bootreq : Statement .bootreq := fun _ => (by decide : (3#5).toNat < 20)
theorem hdr : Statement .hdr := fun _ => (by decide : (4#5).toNat < 20)
theorem hdrEnd : Statement .hdrEnd := fun _ => (by decide : (5#5).toNat < 20)
theorem keySync : Statement .keySync := fun _ => (by decide : (6#5).toNat < 20)
theorem keyReq1 : Statement .keyReq1 := fun _ => (by decide : (7#5).toNat < 20)
theorem keyReq2 : Statement .keyReq2 := fun _ => (by decide : (8#5).toNat < 20)
theorem keyAck : Statement .keyAck := fun _ => (by decide : (9#5).toNat < 20)
theorem len : Statement .len := fun _ => (by decide : (10#5).toNat < 20)
theorem pay : Statement .pay := fun _ => (by decide : (11#5).toNat < 20)
theorem fold : Statement .fold := fun _ => (by decide : (12#5).toNat < 20)
theorem finStart : Statement .finStart := fun _ => (by decide : (13#5).toNat < 20)
theorem finPoll : Statement .finPoll := fun _ => (by decide : (14#5).toNat < 20)
theorem finWait : Statement .finWait := fun _ => (by decide : (15#5).toNat < 20)
theorem finReq : Statement .finReq := fun _ => (by decide : (16#5).toNat < 20)
theorem finCrc : Statement .finCrc := fun _ => (by decide : (17#5).toNat < 20)
theorem done : Statement .done := fun _ => (by decide : (18#5).toNat < 20)
theorem error : Statement .error := fun _ => (by decide : (19#5).toNat < 20)
theorem start : Statement .start := fun _ =>
  ⟨rfl, (by decide : (0x00#32).toNat < 64), (by decide : (0x00#32).extractLsb' 0 2 = 0#2)⟩
theorem lenWrite (v : Word) : Statement (.lenWrite v) := fun _ =>
  ⟨rfl, (by decide : (0x08#32).toNat < 64), (by decide : (0x08#32).extractLsb' 0 2 = 0#2)⟩
theorem regRead (off : BitVec 6) : Statement (.regRead off) := fun h => by
  refine ⟨rfl, ?_, ?_⟩
  · have := off.isLt
    simpa [Access.readWord] using Nat.lt_of_le_of_lt (Nat.mod_le _ _) this
  · have h' : off.extractLsb' 0 2 = 0#2 := by simpa [Instr.wf] using h
    rw [← h']
    ext i hi
    simp only [Access.readWord, BitVec.getElem_extractLsb', BitVec.getLsbD_setWidth]
    simp; omega

end Sys2Proof.Laws.EncodeShape
end

