-- ==== Sys2Proof/Laws/Step.lean ====
section
/-!
SUPPORT. Everything one transition can do, said once: `step_effect` for a step, `cycle_effect` for a
block cycle. Both answer a short list of cases with the next state written out.
-/

namespace Sys2Proof.Machine

open Sys2Proof.Safety

theorem decodeState_table : ∀ c : BitVec 5,
    (match decodeState c with
      | .ok i => decide (encode i = .state c)
      | .error r => decide (r = .reservedState c)) = true := by decide

/-- What a STATE code decodes to has that code. -/
theorem decodeState_ok {c : BitVec 5} {i : Instr} (h : decodeState c = .ok i) :
    encode i = .state c := by
  have := decodeState_table c
  rw [h] at this
  simpa using this

/-- The only rejection of a STATE code is the reserved code. -/
theorem decodeState_error {c : BitVec 5} {r : Reject} (h : decodeState c = .error r) :
    r = .reservedState c := by
  have := decodeState_table c
  rw [h] at this
  simpa using this

variable {s t : State}

/-- A block cycle that answers a next state ran a decoded operation. -/
theorem blockCycle_next {p : Pins} (h : blockCycle p s = .next t) :
    s.completesTwice p = false ∧ ∃ i, decodeState s.state = .ok i ∧
      exec i { s with pins := p, request := s.nextRequest p } = .next t := by
  unfold blockCycle runWord at h
  split at h; · cases h
  rename_i h2
  simp only [State.fetch, decode] at h
  cases hd : decodeState s.state with
  | ok i => rw [hd] at h; exact ⟨by simpa using h2, i, rfl, h⟩
  | error r => rw [hd] at h; cases decodeState_error hd; cases h

/-- An ignored access is a write. -/
theorem decodeAccess_ignored_write {a : Access} {off : Word}
    (h : decodeAccess a = .error (.ignoredWrite off)) : a.write = true := by
  by_contra hw
  replace hw : a.write = false := by simpa using hw
  unfold decodeAccess at h
  simp only [hw] at h
  split at h; · cases h
  split at h; · cases h
  split at h; · cases h
  cases h

/-- The ways a step can answer a next state. -/
inductive StepEffect (s t : State) : Prop where
  /-- A block cycle, scripted or not. -/
  | cycle (p : Pins) (rest : List Input) (i : Instr)
      (hs : (s.moves = [] ∧ rest = s.script ∧ p = Pins.quiet) ∨ s.moves = .clock p :: rest)
      (h2 : s.completesTwice p = false) (s0 : State)
      (h0 : s0 = { s with script := rest, pins := p, request := s.nextRequest p })
      (hd : decodeState s0.state = .ok i) (he : exec i s0 = .next t)
  /-- A register read. -/
  | read (a : Access) (rest : List Input) (x : Word) (hs : s.moves = .host a :: rest)
      (hw : a.write = false) (ht : t = { s with script := rest, rdata := x })
  /-- An ignored write. -/
  | ignored (a : Access) (rest : List Input) (hs : s.moves = .host a :: rest)
      (hw : a.write = true) (ht : t = { s with script := rest })
  /-- START. -/
  | start (v : Word) (rest : List Input)
      (hs : s.moves = .host { write := true, size := 4, offset := 0#32, data := v } :: rest)
      (hv : v.getLsbD 0 = true) (s0 : State) (h0 : s0 = { s with script := rest })
      (he : exec .start s0 = .next t)
  /-- A LEN write. -/
  | lenWrite (v : Word) (rest : List Input)
      (hs : s.moves = .host { write := true, size := 4, offset := 8#32, data := v } :: rest)
      (s0 : State) (h0 : s0 = { s with script := rest }) (he : exec (.lenWrite v) s0 = .next t)
  /-- A host write to the image space. -/
  | image (off : Nat) (b : Byte) (rest : List Input) (hs : s.moves = .image off b :: rest)
      (h1 : off < 0x40000) (h2 : s.busy = false ∨ s.len.toNat ≤ off)
      (ht : t = { s with script := rest, image := Memory.write s.image off b })
  /-- A reset. -/
  | rst (rest : List Input) (hs : s.moves = .rst :: rest)
      (ht : t = ({ s with script := rest } : State).resetBlock)
  /-- A drain of the transport. -/
  | drain (rest : List Input) (hs : s.moves = .drain :: rest)
      (ht : t = { s with script := rest, cut := false })
  /-- A link reconfiguration outside a session. -/
  | relink (rest : List Input) (hs : s.moves = .relink :: rest) (ht : t = { s with script := rest })

/-- Everything a step can do. -/
theorem step_effect (h : step s = .next t) : StepEffect s t := by
  rcases step_cases s with ⟨hs, he⟩ | ⟨m, rest, hs, he⟩ <;> rw [he] at h
  · obtain ⟨h2, i, hd, hx⟩ := blockCycle_next h
    exact .cycle Pins.quiet s.script i (.inl ⟨hs, rfl, rfl⟩) h2 _ rfl hd hx
  cases m with
  | clock p =>
    obtain ⟨h2, i, hd, hx⟩ := blockCycle_next h
    exact .cycle p rest i (.inr hs) h2 _ rfl hd hx
  | host a =>
    simp only [applyInput, hostAccess] at h
    split at h
    · cases h
    unfold runWord at h
    simp only [decode] at h
    cases hd : decodeAccess a with
    | ok i =>
      rw [hd] at h
      obtain ⟨-, h2, -, h4⟩ := decodeAccess_ok hd
      rcases h4 with ⟨hw, rfl⟩ | ⟨hw, ho, hv, rfl⟩ | ⟨hw, ho, rfl⟩
      · simp only [exec, execRegRead] at h
        split at h <;> cases h
        exact .read a rest _ hs hw rfl
      · refine .start a.data rest ?_ hv _ rfl h
        rw [hs, ← hw, ← h2, ← ho]
      · refine .lenWrite a.data rest ?_ _ rfl h
        rw [hs, ← hw, ← h2, ← ho]
    | error r =>
      rw [hd] at h
      cases r <;> simp only [rejected] at h <;> cases h
      exact .ignored a rest hs (decodeAccess_ignored_write hd) rfl
  | image off b =>
    simp only [applyInput, hostImageWrite] at h
    split at h; · cases h
    rename_i h1
    split at h <;> cases h
    rename_i h2
    refine .image off b rest hs (Nat.lt_of_not_le h1) ?_ rfl
    have hb : ({ s with script := rest } : State).busy = s.busy := rfl
    rw [hb] at h2
    cases hb : s.busy
    · exact .inl rfl
    · exact .inr (by simpa [hb] using h2)
  | rst => cases h; exact .rst rest hs rfl
  | drain => cases h; exact .drain rest hs rfl
  | relink =>
    simp only [applyInput, hostRelink] at h
    split at h <;> cases h
    exact .relink rest hs rfl

/-- Everything START can do (R171, R172). -/
theorem start_effect (h : exec .start s = .next t) :
    (s.busy = true ∧ t = s) ∨
    (s.busy = false ∧ 0xC0 ≤ s.len.toNat ∧ s.len.toNat ≤ 0x40000 ∧
      t = { s.clearSession with state := 1#5 }) ∨
    (s.busy = false ∧ ¬ (0xC0 ≤ s.len.toNat ∧ s.len.toNat ≤ 0x40000) ∧
      t = s.clearSession.raiseError 1#3 0#32 s.len) := by
  simp only [exec, execStart] at h
  split at h
  · rename_i hb; cases h; exact .inl ⟨hb, rfl⟩
  rename_i hb
  replace hb : s.busy = false := by simpa using hb
  split at h <;> rename_i hp <;> cases h
  · exact .inr (.inl ⟨hb, ((preconditionOK_iff _).1 hp).1, ((preconditionOK_iff _).1 hp).2, rfl⟩)
  · exact .inr (.inr ⟨hb, fun hl => hp ((preconditionOK_iff _).2 hl), rfl⟩)

/-- Everything a LEN write can do (R173). -/
theorem lenWrite_effect {v : Word} (h : exec (.lenWrite v) s = .next t) :
    (s.busy = true ∧ t = s) ∨ (s.busy = false ∧ t = { s with len := v }) := by
  simp only [exec, execLenWrite] at h
  cases h
  cases hb : s.busy
  · exact .inr ⟨rfl, by simp⟩
  · exact .inl ⟨rfl, by simp⟩

/-- What a completed exchange leaves, by the state it completes in. -/
def Completed (s t : State) : Prop :=
  (s.state = 1#5 ∧ t = { s with
    phase := .issue, pollhit := hsReady s.pins.rxWord, delay := delayTicks s.cfg, state := 2#5 }) ∨
  (s.state = 14#5 ∧ t = { s with
    phase := .issue, pollhit := finReady s.pins.rxWord, delay := delayTicks s.cfg, state := 15#5 }) ∨
  (s.state = 3#5 ∧ t = { s with phase := .issue, cursor := 0#32, state := 4#5 }) ∨
  (s.state = 4#5 ∧ t = { s with
    phase := .issue, cursor := s.cursor + 2#32
    state := if s.cursor + 2#32 = 0xC0#32 then 5#5 else 4#5 }) ∨
  (s.state = 5#5 ∧ t = { s with phase := .issue, state := 6#5 }) ∨
  (s.state = 6#5 ∧ t = { s with phase := .issue, state := 7#5 }) ∨
  (s.state = 7#5 ∧ t = { s with phase := .issue, state := 8#5 }) ∨
  (s.state = 8#5 ∧ rxTag s.pins.rxWord = 0x73#8 ∧ t = { s with
    phase := .issue, seed := seedInit (rxParam s.pins.rxWord)
    crca := crcaAdj (rxParam s.pins.rxWord), state := 9#5 }) ∨
  (s.state = 8#5 ∧ rxTag s.pins.rxWord ≠ 0x73#8 ∧
    t = { s with phase := .issue }.raiseError 3#3 s.cursor s.pins.rxWord) ∨
  (s.state = 9#5 ∧ t = { s with phase := .issue, padlen := padLen s.len, state := 10#5 }) ∨
  (s.state = 10#5 ∧ t = { s with
    phase := .issue, crcb := rxParam s.pins.rxWord, crc := 0xC387#16
    state := if s.cursor < s.padlen then 11#5 else 12#5 }) ∨
  (s.state = 11#5 ∧ rxHi s.pins.rxWord = s.cursorLow ∧ t = { s with
    phase := .issue, cursor := s.cursor + 4#32
    state := if s.cursor + 4#32 < s.padlen then 11#5 else 12#5 }) ∨
  (s.state = 11#5 ∧ rxHi s.pins.rxWord ≠ s.cursorLow ∧
    t = { s with phase := .issue }.raiseError 4#3 s.cursor s.pins.rxWord) ∨
  (s.state = 13#5 ∧ t = { s with phase := .issue, state := 14#5 }) ∨
  (s.state = 16#5 ∧ t = { s with phase := .issue, state := 17#5 }) ∨
  (s.state = 17#5 ∧ t = { s with
    phase := .issue, peerCrc := rxHi s.pins.rxWord
    crcMatch := rxHi s.pins.rxWord == s.crc, state := 18#5 })

/-- The ways the operation that STATE selects can answer a next state. -/
inductive CycleEffect (s t : State) : Prop where
  /-- Nothing changes: a quiescent state, or an exchange that waits for its pin. -/
  | rest (ht : t = s) (hq : s.busy = false ∨ (s.phase = .req ∧ s.pins.txReady = false) ∨
      (s.phase = .rsp ∧ s.pins.rxValid = false))
  /-- A wait counts. -/
  | count (h : s.state = 2#5 ∨ s.state = 15#5) (hd : s.delay ≠ 0#32)
      (ht : t = { s with delay := s.delay - 1#32 })
  /-- HS_WAIT ends. -/
  | leaveHs (h : s.state = 2#5) (hd : s.delay = 0#32)
      (ht : t = { s with state := if s.pollhit then 3#5 else 1#5 })
  /-- FIN_WAIT ends. -/
  | leaveFin (h : s.state = 15#5) (hd : s.delay = 0#32)
      (ht : t = { s with state := if s.pollhit then 16#5 else 14#5 })
  /-- FOLD. -/
  | fold (h : s.state = 12#5)
      (ht : t = { s with crc := crcWord s.crc (foldWord s.crca s.crcb), state := 13#5 })
  /-- An exchange other than PAY latches its frame. -/
  | issue (f : Word) (he : exchangeState s.state = true) (hn : s.state ≠ 11#5)
      (hp : s.phase = .issue) (ht : t = { s with phase := .req, txw := f })
  /-- PAY latches its frame. -/
  | issuePay (f : Word) (he : s.state = 11#5) (hp : s.phase = .issue)
      (ht : t = { s.payPre with phase := .req, txw := f })
  /-- The frame is accepted. -/
  | accept (he : exchangeState s.state = true) (hp : s.phase = .req)
      (hr : s.pins.txReady = true) (ht : t = { s with phase := .rsp })
  /-- The exchange fails. -/
  | fail (he : exchangeState s.state = true) (hp : s.phase = .rsp) (hv : s.pins.rxValid = true)
      (hf : s.pins.rxFail = true) (ht : t = { s with phase := .issue }.raiseError 2#3 s.cursor 0#32)
  /-- The exchange completes. -/
  | complete (he : exchangeState s.state = true) (hp : s.phase = .rsp)
      (hv : s.pins.rxValid = true) (hf : s.pins.rxFail = false) (hc : Completed s t)

theorem exchange_effect {pre : State → State} {frame : State → Word}
    {complete : Word → State → State} (he : exchangeState s.state = true) (hn : s.state ≠ 11#5)
    (hpre : pre = id) (h : exchange pre frame complete s = .next t)
    (hc : t = complete s.pins.rxWord { s with phase := .issue } → Completed s t) :
    CycleEffect s t := by
  subst hpre
  rcases exchange_cases h with
    ⟨h1, rfl⟩ | ⟨h1, h2, rfl⟩ | ⟨h1, h2, rfl⟩ | ⟨h1, h2, rfl⟩ | ⟨h1, h2, h3, rfl⟩ | ⟨h1, h2, h3, h4⟩
  · exact .issue (frame s) he hn h1 rfl
  · exact .accept he h1 h2 rfl
  · exact .rest rfl (.inr (.inl ⟨h1, h2⟩))
  · exact .rest rfl (.inr (.inr ⟨h1, h2⟩))
  · exact .fail he h1 h2 h3 rfl
  · exact .complete he h1 h2 h3 (hc h4)

theorem wait_effect {ready again : BitVec 5} (hs : s.state = 2#5 ∨ s.state = 15#5)
    (hl : s.delay = 0#32 → t = { s with state := if s.pollhit then ready else again } →
      CycleEffect s t)
    (h : (.next (s.waitStep ready again) : Result) = .next t) : CycleEffect s t := by
  cases h
  by_cases h0 : s.delay = 0#32
  · exact hl h0 (State.waitStep_leaves _ _ h0)
  · rw [State.waitStep_counts _ _ h0]
    exact .count hs h0 rfl

/-- Everything the operation that STATE selects can do. -/
theorem cycle_effect {i : Instr} (hd : decodeState s.state = .ok i) (h : exec i s = .next t) :
    CycleEffect s t := by
  have hi := decodeState_ok hd
  cases i
  case start => cases hi
  case lenWrite => cases hi
  case regRead => cases hi
  all_goals have hs := (OpWord.state.inj hi).symm; clear hi
  case idle => cases h; exact .rest rfl (.inl (busy_eq_false_iff.2 (.inl hs)))
  case done => cases h; exact .rest rfl (.inl (busy_eq_false_iff.2 (.inr (.inl hs))))
  case error => cases h; exact .rest rfl (.inl (busy_eq_false_iff.2 (.inr (.inr hs))))
  case hsWait => exact wait_effect (.inl hs) (fun h0 ht => .leaveHs hs h0 ht) h
  case finWait => exact wait_effect (.inr hs) (fun h0 ht => .leaveFin hs h0 ht) h
  case fold =>
    have h' : (.next { s with
      crc := crcWord s.crc (foldWord s.crca s.crcb), state := Code.finStart } : Result) =
        .next t := h
    exact .fold hs (Host.Outcome.next.inj h').symm
  all_goals have he : exchangeState s.state = true := by rw [hs]; decide
  case pay =>
    rcases exchange_cases h with
      ⟨h1, h2⟩ | ⟨h1, h2, rfl⟩ | ⟨h1, h2, rfl⟩ | ⟨h1, h2, rfl⟩ | ⟨h1, h2, h3, rfl⟩ | ⟨h1, h2, h3, h4⟩
    · exact .issuePay (State.payFrame s.payPre) hs h1 h2
    · exact .accept he h1 h2 rfl
    · exact .rest rfl (.inr (.inl ⟨h1, h2⟩))
    · exact .rest rfl (.inr (.inr ⟨h1, h2⟩))
    · exact .fail he h1 h2 h3 rfl
    · refine .complete he h1 h2 h3 ?_
      unfold State.payDone at h4
      split at h4 <;> rename_i hx
      · repeat (first | exact .inl ⟨hs, hx, h4⟩ | right)
      · repeat (first | exact .inl ⟨hs, not_not.1 hx, h4⟩ | right)
  all_goals refine exchange_effect he (by rw [hs]; decide) rfl h fun h4 => ?_
  case keyReq2 =>
    unfold State.tokenDone at h4
    split at h4 <;> rename_i hx
    · repeat (first | exact .inl ⟨hs, hx, h4⟩ | right)
    · repeat (first | exact .inl ⟨hs, not_not.1 hx, h4⟩ | right)
  all_goals repeat (first | exact .inl ⟨hs, h4⟩ | exact ⟨hs, h4⟩ | right)

/-- A quiescent state takes no step of its own (R170, R175, R176). -/
theorem cycle_of_not_busy {i : Instr} (hd : decodeState s.state = .ok i) (h : exec i s = .next t)
    (hb : s.busy = false) : t = s := by
  have hb' := busy_eq_false_iff.1 hb
  have hx : exchangeState s.state = true → False := by
    intro he
    rcases hb' with e | e | e <;> (rw [e] at he; revert he; decide)
  rcases cycle_effect hd h with ⟨rfl, _⟩ | ⟨h, _, _⟩ | ⟨h, _, _⟩ | ⟨h, _, _⟩ | ⟨h, _⟩ | ⟨_, h, _, _, _⟩ |
    ⟨_, h, _, _⟩ | ⟨h, _, _, _⟩ | ⟨h, _, _, _, _⟩ | ⟨h, _, _, _, _⟩
  · rfl
  · rcases h with h | h <;> simp [h] at hb'
  · simp [h] at hb'
  · simp [h] at hb'
  · simp [h] at hb'
  · exact (hx h).elim
  · simp [h] at hb'
  · exact (hx h).elim
  · exact (hx h).elim
  · exact (hx h).elim

/-! ## Runs -/

/-- A run of `n + 1` steps whose first step answers `t`. -/
theorem run_succ {n : Nat} (h : step s = .next t) : core.run (n + 1) s = core.run n t := by
  have h' : core.step s = .next t := h
  simp only [Host.Core.run, h']

/-- A run that ends in a next state takes its first step. -/
theorem run_next {n : Nat} (h : core.run (n + 1) s = .next t) :
    ∃ u, step s = .next u ∧ core.run n u = .next t := by
  cases hs : step s with
  | next u => rw [run_succ hs] at h; exact ⟨u, rfl, h⟩
  | fault r =>
    have h' : core.step s = .fault r := hs
    simp only [Host.Core.run, h'] at h
    cases h
  | refused r =>
    have h' : core.step s = .refused r := hs
    simp only [Host.Core.run, h'] at h
    cases h

/-- Runs compose. -/
theorem run_add {n m : Nat} (h : core.run n s = .next t) :
    core.run (n + m) s = core.run m t := by
  induction n generalizing s with
  | zero => cases h; rw [Nat.zero_add]
  | succ n ih =>
    obtain ⟨u, hu, hr⟩ := run_next h
    rw [Nat.add_right_comm, run_succ hu, ih hr]

/-- The trace of a run begins with the events of its first step. -/
theorem trace_succ {n : Nat} (h : step s = .next t) :
    trace (n + 1) s = s.events ++ trace n t := by
  have h' : nextTransition s = .next t := h
  simp only [trace, h']

/-- Traces compose. -/
theorem trace_add {n m : Nat} (h : core.run n s = .next t) :
    trace (n + m) s = trace n s ++ trace m t := by
  induction n generalizing s with
  | zero => cases h; simp [trace]
  | succ n ih =>
    obtain ⟨u, hu, hr⟩ := run_next h
    rw [Nat.add_right_comm, trace_succ hu, trace_succ hu, ih hr, List.append_assoc]

theorem frames_append (a b : List Event) : frames (a ++ b) = frames a ++ frames b := by
  induction a with
  | nil => rfl
  | cons e a ih => cases e <;> simp [frames, ih]

end Sys2Proof.Machine
end

