-- ==== Sys2Proof/Tests/Slice0.lean ====
section
/-!
SUPPORT. Tests. Expected values come from 95_test_vectors.md (its Part named at each test) or from a
table of spec/ read by hand; the witnesses at the end show that the hypotheses of the statements are
met, at the edges of their ranges.
-/

namespace Sys2Proof.Tests

open Sys2Proof.Machine Sys2Proof.Safety

/-! ## Helpers -/

/-- A reset machine with a clock of 1000 Hz, so that DELAY_TICKS = 10. -/
def base : State := { State.reset with cfg := { lenWordMode := .unsigned, fClk := 1000 } }

/-- In the exchange state `c`, about to issue. -/
def issuing (c : BitVec 5) : State := { base with state := c }

/-- In the exchange state `c`, with the response `r` on the pins. -/
def answered (c : BitVec 5) (r : Word) : State :=
  { base with state := c, phase := .rsp, request := .outstanding, pins := answer r }

/-- In the exchange state `c`, with a failure on the pins. -/
def failed (c : BitVec 5) : State :=
  { base with
    state := c, phase := .rsp, request := .outstanding
    pins := { txReady := false, rxValid := true, rxWord := 0xFFFFFFFF#32, rxFail := true } }

/-- A part of the next state, if there is one. -/
def get {α : Type} (r : Result) (f : State → α) : Option α :=
  match r with
  | .next t => some (f t)
  | _ => none

/-- The name of a refusal, if there is one. -/
def refusal (r : Result) : Option Refusal :=
  match r with
  | .refused e => some e
  | _ => none

/-- The reason of a fault, if there is one. -/
def fault (r : Result) : Option Fault :=
  match r with
  | .fault e => some e
  | _ => none

/-! ## Well-formedness (10 rule R38) -/

theorem test_wf_refuses_misaligned_read : Instr.wf (.regRead 0x05#6) = false := by decide
theorem test_wf_admits_edges :
    Instr.wf (.regRead 0x00#6) = true ∧ Instr.wf (.regRead 0x3C#6) = true ∧
      Instr.wf (.lenWrite 0xFFFFFFFF#32) = true := by decide

/-! ## Decoding: STATE codes of 10 rule R21, commands of 10 rule R25 and 30 rule R83 -/

theorem test_decode_handshake :
    decode (.state 0b00001#5) = .ok .hsPoll ∧ decode (.state 0b00010#5) = .ok .hsWait ∧
      decode (.state 0b00011#5) = .ok .bootreq ∧ decode (.state 0b00100#5) = .ok .hdr ∧
      decode (.state 0b00101#5) = .ok .hdrEnd := ⟨rfl, rfl, rfl, rfl, rfl⟩
theorem test_decode_key_exchange :
    decode (.state 0b00110#5) = .ok .keySync ∧ decode (.state 0b00111#5) = .ok .keyReq1 ∧
      decode (.state 0b01000#5) = .ok .keyReq2 ∧ decode (.state 0b01001#5) = .ok .keyAck ∧
      decode (.state 0b01010#5) = .ok .len := ⟨rfl, rfl, rfl, rfl, rfl⟩
theorem test_decode_payload :
    decode (.state 0b01011#5) = .ok .pay ∧ decode (.state 0b01100#5) = .ok .fold := ⟨rfl, rfl⟩
theorem test_decode_finalization :
    decode (.state 0b01101#5) = .ok .finStart ∧ decode (.state 0b01110#5) = .ok .finPoll ∧
      decode (.state 0b01111#5) = .ok .finWait ∧ decode (.state 0b10000#5) = .ok .finReq ∧
      decode (.state 0b10001#5) = .ok .finCrc := ⟨rfl, rfl, rfl, rfl, rfl⟩
theorem test_decode_quiescent :
    decode (.state 0b00000#5) = .ok .idle ∧ decode (.state 0b10010#5) = .ok .done ∧
      decode (.state 0b10011#5) = .ok .error ∧
      decode (.state 0b10100#5) = .error (.reservedState 20#5) := ⟨rfl, rfl, rfl, rfl⟩
theorem test_decode_start_ignores_high_bits :
    decode (.access ⟨true, 4, 0x00#32, 0xFFFFFFFF#32⟩) = .ok .start ∧
      decode (.access ⟨true, 4, 0x00#32, 0xFFFFFFFE#32⟩) = .error (.ignoredWrite 0x00#32) :=
  ⟨rfl, rfl⟩
theorem test_decode_len_write :
    decode (.access ⟨true, 4, 0x08#32, 0x000000C4#32⟩) = .ok (.lenWrite 0x000000C4#32) := rfl
theorem test_decode_reg_read :
    decode (.access ⟨false, 4, 0x3C#32, 0#32⟩) = .ok (.regRead 0x3C#6) ∧
      decode (.access ⟨false, 4, 0x40#32, 0#32⟩) = .error (.outsideWindow 0x40#32) ∧
      decode (.access ⟨false, 2, 0x04#32, 0#32⟩) = .error (.accessSize 2) := ⟨rfl, rfl, rfl⟩
/-- The numbers of spec/opcode_table.json: a STATE code in [4:0], START's bit 0, LEN's offset. -/
theorem test_table_numbers :
    decodeTableWord 5 0x0B = some .pay ∧ decodeTableWord 5 0x13 = some .error ∧
      decodeTableWord 32 0x01 = some .start ∧ decodeTableWord 8 0x08 = some (.lenWrite 0#32) ∧
      decodeTableWord 0 0x00 = some (.regRead 0#6) := ⟨rfl, rfl, rfl, rfl, rfl⟩
theorem test_fetch_word_runs_first :
    get (step (State.reset.withFetchWord 5 0x01)) (fun t => (t.state, t.phase, t.txw)) =
      some (1#5, .req, 0x00006202#32) := by decide

/-! ## Datapath units (95, L2.1) -/

theorem test_response_fields :
    (rxHi 0x73AB0000#32, rxTag 0x73AB0000#32, rxParam 0x73AB0000#32) =
      (0x73AB#16, 0x73#8, 0xAB#8) := by decide
theorem test_lcg_step :
    (lcgStep 0xFFFFFFFF#32, lcgStep 0xFFFFABD1#32) = (0x909B9A8E#32, 0x9B47A3E4#32) := by decide
theorem test_crc_step :
    (crcStep 0xC387#16 false, crcStep 0xC387#16 true, crcStep 0x8000#16 false) =
      (0xA2B8#16, 0x61C3#16, 0x4000#16) := by decide
theorem test_crc_word : crcWord 0xC387#16 0x12345678#32 = 0x4DD0#16 := by decide
theorem test_crc_word_high_bit : crcWord 0x1234#16 0x80000000#32 = 0x6BBD#16 := by decide
theorem test_encrypt :
    encrypt 0x12345678#32 0x9ABCDEF0#32 0x100#32 = 0x365758A7#32 := by decide
theorem test_pad_len :
    (padLen 0xC0#32, padLen 0xC1#32, padLen 0x3FFF1#32, padLen 0x40000#32) =
      (0xC0#32, 0xD0#32, 0x40000#32, 0x40000#32) := by decide
theorem test_len_word :
    (lenWord .unsigned 0xD0#32, lenWord .signed 0xD0#32, lenWord .unsigned 0x1240#32,
      lenWord .signed 0x40000#32) =
      (0x3FFFFFD0#32, 0xFFFFFFD0#32, 0x0000042C#32, 0x0000FF9C#32) := by decide
theorem test_key_units :
    (seedInit 0xAB#8, crcaAdj 0xFF#8, keyAckFrame 0xBA#8, foldWord 0xBA#8 0x34#8,
      crcFrame 0x2612#16) =
      (0xFFFFABD1#32, 0x0E#8, 0x000064BA#32, 0xFFFF34BA#32, 0x00002612#32) := by decide
/-- Bytes 0x5D, 0x64 at 0xC4 and 0xC5, LEN = 0xC6: the bytes beyond LEN are masked. -/
theorem test_pay_word_masked :
    ({ base with
      len := 0xC6#32, image := [(0xC4, 0x5D#8), (0xC5, 0x64#8), (0xC6, 0xFF#8)] } : State).payWord
        0xC4#32 = 0x0000645D#32 := by decide
theorem test_delay_ticks : delayTicks { lenWordMode := .unsigned, fClk := 1001 } = 11#32 := by
  decide

/-! ## Operations (95, L2.2 to L2.6): at most two each -/

theorem test_hs_poll_not_ready :
    get (exec .hsPoll (answered 1#5 0x00007202#32)) (fun t => (t.pollhit, t.delay, t.state)) =
      some (false, 10#32, 2#5) := by decide
theorem test_hs_poll_fails :
    get (exec .hsPoll (failed 1#5)) State.statusWord = some 0x00010293#32 := by decide
theorem test_hs_wait_counts :
    get (exec .hsWait { issuing 2#5 with delay := 5#32 }) (fun t => (t.delay, t.state)) =
      some (4#32, 2#5) := by decide
theorem test_hs_wait_leaves :
    get (exec .hsWait { issuing 2#5 with pollhit := true }) State.state = some 3#5 := by decide
theorem test_bootreq :
    get (exec .bootreq { answered 3#5 0xFFFFFFFF#32 with cursor := 7#32 })
      (fun t => (t.cursor, t.state)) = some (0#32, 4#5) := by decide
theorem test_hdr_frame :
    get (exec .hdr { issuing 4#5 with len := 0xC0#32, image := [(0, 0x01#8), (1, 0x08#8)] })
      State.txw = some 0x00000801#32 := by decide
theorem test_hdr_last :
    get (exec .hdr { answered 4#5 0#32 with cursor := 0xBE#32 }) (fun t => (t.cursor, t.state)) =
      some (0xC0#32, 5#5) := by decide
theorem test_hdr_end :
    get (exec .hdrEnd (issuing 5#5)) State.txw = some 0x00006200#32 ∧
      get (exec .hdrEnd (answered 5#5 0#32)) State.state = some 6#5 := by decide
theorem test_key_sync :
    get (exec .keySync (issuing 6#5)) State.txw = some 0x00006202#32 ∧
      get (exec .keySync (answered 6#5 0#32)) State.state = some 7#5 := by decide
theorem test_key_req1 :
    get (exec .keyReq1 (answered 7#5 0x73AB0000#32)) (fun t => (t.seed, t.state)) =
      some (0#32, 8#5) := by decide
theorem test_key_req2_token :
    get (exec .keyReq2 (answered 8#5 0x73FF1234#32)) (fun t => (t.seed, t.crca, t.state)) =
      some (0xFFFFFFD1#32, 0x0E#8, 9#5) := by decide
theorem test_key_req2_rejected :
    get (exec .keyReq2 { answered 8#5 0x72AB0000#32 with cursor := 0xC0#32, pollhit := true })
      (fun t => (t.statusWord, t.errInfo, t.errOffset)) =
      some (0x00880393#32, 0x72AB0000#32, 0xC0#32) := by decide
theorem test_key_ack :
    get (exec .keyAck { issuing 9#5 with crca := 0xBA#8 }) State.txw = some 0x000064BA#32 ∧
      get (exec .keyAck { answered 9#5 0#32 with len := 0xC4#32 })
        (fun t => (t.padlen, t.state)) = some (0xD0#32, 10#5) := by decide
theorem test_key_ack_fails :
    get (exec .keyAck { failed 9#5 with len := 0xC4#32 }) (fun t => (t.padlen, t.errcode)) =
      some (0#32, 2#3) := by decide
theorem test_len_frame :
    get (exec .len { issuing 10#5 with padlen := 0xD0#32 }) State.txw =
      some 0x3FFFFFD0#32 := by decide
theorem test_len_header_only :
    get (exec .len
        { answered 10#5 0x7F01ABCD#32 with cursor := 0xC0#32, padlen := 0xC0#32 })
      (fun t => (t.crcb, t.crc, t.state)) = some (0x01#8, 0xC387#16, 12#5) := by decide
/-- L2.4, first line: the first PAY of program P1. -/
theorem test_pay_issue :
    get (exec .pay { issuing 11#5 with
        cursor := 0xC0#32, padlen := 0xD0#32, seed := 0xFFFFABD1#32, crc := 0xC387#16 })
      (fun t => (t.txw, t.crc, t.seed)) =
      some (0x2598738B#32, 0xAEA0#16, 0x9B47A3E4#32) := by decide
/-- Program P5: the echo 0x00C9 for offset 0xC8. -/
theorem test_pay_integrity :
    get (exec .pay { answered 11#5 0x00C90000#32 with
        cursor := 0xC8#32, padlen := 0xD0#32, pollhit := true })
      (fun t => (t.statusWord, t.errOffset, t.errInfo, t.cursor)) =
      some (0x008B0493#32, 0xC8#32, 0x00C90000#32, 0xC8#32) := by decide
theorem test_fold :
    get (exec .fold { issuing 12#5 with crc := 0xF02F#16, crca := 0xBA#8, crcb := 0x34#8 })
      (fun t => (t.crc, t.state)) = some (0x2612#16, 13#5) := by decide
theorem test_fin_start :
    get (exec .finStart (issuing 13#5)) State.txw = some 0x00000065#32 ∧
      get (exec .finStart (answered 13#5 0x00750000#32)) (fun t => (t.pollhit, t.state)) =
        some (false, 14#5) := by decide
theorem test_fin_poll :
    get (exec .finPoll (answered 14#5 0x0075ABCD#32)) (fun t => (t.pollhit, t.delay, t.state)) =
      some (true, 10#32, 15#5) := by decide
theorem test_fin_wait :
    get (exec .finWait { issuing 15#5 with pollhit := true }) State.state = some 16#5 ∧
      get (exec .finWait (issuing 15#5)) State.state = some 14#5 := by decide
theorem test_fin_req :
    get (exec .finReq (issuing 16#5)) State.txw = some 0x00000066#32 ∧
      get (exec .finReq (answered 16#5 0#32)) State.state = some 17#5 := by decide
theorem test_fin_crc_mismatch_is_done :
    get (exec .finCrc { answered 17#5 0xBEEF0000#32 with crc := 0x72F0#16, pollhit := true })
      (fun t => (t.peerCrc, t.statusWord)) = some (0xBEEF#16, 0x00800052#32) := by decide
theorem test_fin_crc_match :
    get (exec .finCrc { answered 17#5 0x26120000#32 with crc := 0x2612#16, pollhit := true })
      State.statusWord = some 0x00800852#32 := by decide
theorem test_quiescent_rest :
    get (exec .idle base) State.state = some 0#5 ∧
      get (exec .done (issuing 18#5)) State.state = some 18#5 ∧
      get (exec .error (issuing 19#5)) State.state = some 19#5 := by decide
theorem test_start_accepted :
    get (exec .start { base with len := 0xC4#32 }) State.statusWord = some 0x00001021#32 := by
  decide
theorem test_start_out_of_range :
    get (exec .start { base with len := 0x40001#32 }) (fun t => (t.statusWord, t.errInfo)) =
      some (0x00000193#32, 0x00040001#32) := by decide
theorem test_len_write :
    get (exec (.lenWrite 0xC4#32) base) State.len = some 0xC4#32 ∧
      get (exec (.lenWrite 0x100#32) (issuing 4#5)) State.len = some 0#32 := by decide
theorem test_reg_read :
    get (exec (.regRead 0x1C#6) { base with crca := 0xBA#8, crcb := 0x34#8 }) State.rdata =
      some 0x000034BA#32 ∧
      get (exec (.regRead 0x2C#6) { base with len := 1#32 }) State.rdata = some 0#32 := by decide

/-! ## Witnesses: the hypotheses of the statements are met -/

/-- `s` with the move `m` scripted. -/
def moved (s : State) (m : Input) : State := { s with script := [m] }

/-- A session's state in HDR at its last frame (P1's image). -/
def inHeader : State :=
  { base with state := 4#5, len := 0xC4#32, cursor := 0xBE#32, pollhit := true }

/-- A session's state in PAY at its last word (P1). -/
def inPayload : State :=
  { base with
    state := 11#5, len := 0xC4#32, padlen := 0xD0#32, cursor := 0xCC#32, seed := 0x7DC53AF8#32
    crc := 0x793F#16, crca := 0xBA#8, crcb := 0x34#8, pollhit := true }

theorem witness_reserved_codes :
    (moved (issuing 20#5) (.clock accept)).script = .clock accept :: [] ∧
      20 ≤ (issuing 20#5).state.toNat ∧ 20 ≤ (issuing 31#5).state.toNat ∧
      (issuing 31#5).moves = [] ∧ accept.rxValid = false ∧ (issuing 31#5).request ≠ .answered ∧
      refusal (step (moved (issuing 31#5) (.clock (answer 0#32)))) = some (.reservedState 31#5) ∧
      (19#5 : BitVec 5).toNat < 20 := by
  decide
theorem witness_decoded_words :
    decode (.state 19#5) = .ok .error ∧ decode (.access ⟨true, 4, 0#32, 3#32⟩) = .ok .start ∧
      decode (.access ⟨true, 4, 8#32, 5#32⟩) = .ok (.lenWrite 5#32) := ⟨rfl, rfl, rfl⟩
theorem witness_step_runs_decoded :
    decode (.state (issuing 17#5).state) = .ok .finCrc ∧ base.moves = [] ∧
      ({ base with loop := [.clock accept] } : State).moves = .clock accept :: [] ∧
      accept.rxValid = false ∧ base.request ≠ .answered ∧
      (moved base (.host ⟨true, 4, 0#32, 1#32⟩)).cut = false ∧
      decode (.access ⟨true, 4, 0#32, 1#32⟩) = .ok .start ∧
      ({ issuing 4#5 with cut := true } : State).busy = true ∧
      ¬ (0xC0 ≤ base.len.toNat ∧ base.len.toNat ≤ 0x40000) ∧
      get (step (moved { base with cut := true } (.host ⟨true, 4, 0#32, 1#32⟩))) State.errcode =
        some 1#3 ∧
      decode (.access ⟨false, 4, 0x28#32, 0#32⟩) = .ok (.regRead 0x28#6) :=
  ⟨rfl, rfl, rfl, rfl, by decide, rfl, rfl, rfl, by decide, by decide, rfl⟩
theorem witness_window :
    0x2C#6 ≤ (0x3C#6 : BitVec 6) ∧ (0x3C#32 : Word).toNat % 4 = 0 ∧ (0x3C#32 : Word).toNat < 0x40 ∧
      (0x04#32 : Word) ≠ 0x00#32 ∧ (0x0C#32 : Word) ≠ 0x08#32 ∧
      (0xFFFFFFFE#32 : Word).getLsbD 0 = false ∧ (1#32 : Word).getLsbD 0 = true := by decide
theorem witness_accesses_stop :
    (0x3F#6 : BitVec 6).toNat % 4 ≠ 0 ∧ 0x40 ≤ (0x40#32 : Word).toNat ∧
      refusal (exec (.regRead 0x3F#6) base) = some (.misaligned 0x3F#32) ∧
      fault (step (moved base (.host ⟨false, 4, 0x40#32, 0#32⟩))) =
        some (.outsideWindow 0x40#32) := by decide
theorem witness_window_access :
    refusal (step (moved base (.host ⟨false, 1, 0x3C#32, 0#32⟩))) = some (.accessSize 1) ∧
      get (step (moved base (.host ⟨false, 4, 0x3C#32, 0#32⟩))) State.rdata = some 0#32 ∧
      get (step (moved base (.host ⟨true, 4, 8#32, 5#32⟩))) State.len = some 5#32 ∧
      get (step (moved base (.host ⟨true, 4, 0#32, 1#32⟩))) State.state = some 19#5 := by decide
theorem witness_reg_read : (0x28#6 : BitVec 6).toNat % 4 = 0 ∧ (0x2C#6 : BitVec 6).toNat % 4 = 0 ∧
    0x2C ≤ (0x2C#6 : BitVec 6).toNat := by decide
theorem witness_status_write :
    (moved base (.host ⟨true, 4, 4#32, 7#32⟩)).script = .host ⟨true, 4, 4#32, 7#32⟩ :: [] := rfl
theorem witness_reset_cuts :
    (moved inHeader .rst).script = .rst :: [] ∧
      get (step (moved { inHeader with phase := .req } .rst)) State.cut = some true ∧
      get (step (moved inHeader .rst)) State.cut = some false := by decide
theorem witness_start_waits :
    ({ base with cut := true, len := 0xC0#32 } : State).busy = false ∧
      0xC0 ≤ (0xC0#32 : Word).toNat ∧ (0x40000#32 : Word).toNat ≤ 0x40000 ∧
      refusal (step (moved { base with cut := true, len := 0x40000#32 }
        (.host ⟨true, 4, 0#32, 1#32⟩))) = some .startBeforeDrain ∧
      get (step (moved { base with cut := true } .drain)) State.cut = some false := by decide
theorem witness_image_mask :
    inHeader.len ≤ (0xC4#32 : Word) ∧ (0xC3#32 : Word) < inHeader.len ∧
      (0xC3#32 : Word).toNat < 0x40000 := by decide
theorem witness_lengths :
    0xC0 ≤ (0xC0#32 : Word).toNat ∧ (0x40000#32 : Word).toNat ≤ 0x40000 ∧
      (0x190#32 : Word).toNat % 16 = 0 ∧ 0x190 ≤ (0x190#32 : Word).toNat ∧
      (0x180#32 : Word).toNat % 16 = 0 ∧ (0x180#32 : Word).toNat < 0x190 := by decide
theorem witness_delay_ticks :
    ({ lenWordMode := .signed, fClk := 100 * (2 ^ 32 - 1) } : Config).fClk ≤
      100 * (2 ^ 32 - 1) ∧ ({ lenWordMode := .signed, fClk := 1 } : Config).fClk ≤ 100 * 1 := by
  decide
/-- The six clauses of `ExchangeStep`, for every exchange operation. -/
theorem witness_exchange_step :
    (issuing 1#5).phase = .issue ∧
      ({ issuing 1#5 with phase := .req, pins := accept } : State).pins.txReady = true ∧
      ({ issuing 1#5 with phase := .req } : State).pins.txReady = false ∧
      ({ issuing 1#5 with phase := .rsp } : State).pins.rxValid = false ∧
      (failed 1#5).phase = .rsp ∧ (failed 1#5).pins.rxValid = true ∧
      (failed 1#5).pins.rxFail = true ∧ (answered 1#5 0#32).phase = .rsp ∧
      (answered 1#5 0#32).pins.rxValid = true ∧ (answered 1#5 0#32).pins.rxFail = false := by
  decide
theorem witness_waits :
    ({ base with delay := 1#32 } : State).delay ≠ 0#32 ∧ base.delay = 0#32 ∧
      base.pollhit = false ∧ inHeader.delay = 0#32 ∧ inHeader.pollhit = true := by decide
theorem witness_start :
    inHeader.busy = true ∧ base.busy = false ∧ (issuing 19#5).busy = false ∧
      ¬ (0xC0 ≤ (0xBF#32 : Word).toNat ∧ (0xBF#32 : Word).toNat ≤ 0x40000) ∧
      ¬ (0xC0 ≤ (0x40001#32 : Word).toNat ∧ (0x40001#32 : Word).toNat ≤ 0x40000) := by decide
theorem witness_frames :
    ∃ t, exec .keyAck (answered 9#5 0#32) = .next t ∧ Reg.seed ∉ writes .keyAck :=
  ⟨_, rfl, by decide⟩
theorem witness_image_write :
    Memory.wf [(0x3FFFF, 0x01#8)] ∧ inHeader.busy = true ∧ 0xC3 < inHeader.len.toNat ∧
      inHeader.len.toNat ≤ 0xC4 ∧ base.busy = false ∧
      fault (step (moved base (.image 0x40000 1#8))) = some (.outsideImage 0x40000) ∧
      refusal (step (moved inHeader (.image 0xC3 1#8))) = some (.imageWriteWhileBusy 0xC3) ∧
      get (step (moved inHeader (.image 0xC4 1#8))) State.image = some [(0xC4, 1#8)] := by
  decide
/-- Transitions of every kind that change STATE: along the sequence, to ERROR, by a reset. -/
theorem witness_state_changes :
    get (step (moved (answered 17#5 0#32) (.clock (answer 0#32)))) State.state = some 18#5 ∧
      get (step (moved (failed 4#5) (.clock (failed 4#5).pins))) State.state = some 19#5 ∧
      get (step (moved inHeader .rst)) State.state = some 0#5 := by decide
/-- Leaving quiescence by START and by a reset; `link_en` rises. -/
theorem witness_quiescent_left :
    get (step (moved { issuing 18#5 with len := 0xC0#32 } (.host ⟨true, 4, 0#32, 1#32⟩)))
        (fun t => (t.state, t.linkEn)) = some (1#5, true) ∧
      get (step (moved (issuing 19#5) .rst)) State.state = some 0#5 ∧
      (issuing 18#5).linkEn = false := by decide
theorem witness_busy_session :
    (moved inHeader .drain).busy = true ∧ (Input.drain ≠ .rst) ∧
      (moved inHeader .drain).moves.head? ≠ some .rst ∧
      get (step (moved inHeader (.host ⟨true, 4, 8#32, 1#32⟩))) State.len = some 0xC4#32 := by
  decide
/-- ERROR by each of its four causes: failure, rejected token, wrong echo, length out of range. -/
theorem witness_errors :
    get (step (moved (failed 1#5) (.clock (failed 1#5).pins))) State.errcode = some 2#3 ∧
      get (step (moved (answered 8#5 0#32) (.clock (answer 0#32)))) State.errcode = some 3#3 ∧
      get (step (moved { inPayload with phase := .rsp, request := .outstanding } (.clock (answer 0#32)))) State.errcode =
        some 4#3 ∧
      get (step (moved base (.host ⟨true, 4, 0#32, 1#32⟩))) State.errcode = some 1#3 := by decide
theorem witness_frame_changes :
    get (step (moved (issuing 1#5) (.clock accept))) State.txw = some 0x6202#32 ∧
      (issuing 1#5).txw ≠ 0x6202#32 := by decide
theorem witness_pins :
    (accept.txReady = base.pins.txReady ∨ base.phase ≠ .req) ∧
      ((answer 5#32).rxValid = (answered 1#5 5#32).pins.rxValid) ∧ base.phase ≠ .rsp := by decide
theorem witness_unread_bits :
    (0x7202FFFF#32 : Word).extractLsb' 16 16 = (0x72020000#32 : Word).extractLsb' 16 16 ∧
      (0x7F01ABCD#32 : Word).extractLsb' 16 8 = (0x00010000#32 : Word).extractLsb' 16 8 ∧
      (0x73FF1234#32 : Word).extractLsb' 24 8 = 0x73#8 ∧
      (0x00CCFFFF#32 : Word).extractLsb' 16 16 = inPayload.cursor.setWidth 16 := by decide

theorem witness_invariant_header : Inv inHeader where
  codes := ⟨by decide, by decide⟩
  cursor := ⟨by decide, by decide, by decide, by decide, by decide, by decide, by decide,
    by decide, by decide⟩
  fresh := ⟨by decide, by decide, by decide, by decide, by decide, by decide, by decide⟩
  errors := ⟨by decide, by decide⟩
  pending := by decide
  image := by decide
theorem witness_invariant_payload : Inv inPayload where
  codes := ⟨by decide, by decide⟩
  cursor := ⟨by decide, by decide, by decide, by decide, by decide, by decide, by decide,
    by decide, by decide⟩
  fresh := ⟨by decide, by decide, by decide, by decide, by decide, by decide, by decide⟩
  errors := ⟨by decide, by decide⟩
  pending := by decide
  image := by decide
theorem witness_invariant_steps :
    get (step inHeader) State.phase = some .req ∧ get (step inPayload) State.phase = some .req := by
  decide
/-- An image that differs from the session's only beyond the bytes a frame reads, at the last frame of
each phase, and one that differs in its last byte and so changes the frame. -/
theorem witness_image_reads :
    (∀ k < 2, Memory.read [(0xC0, 1#8)] (inHeader.cursor.toNat + k) =
      Memory.read inHeader.image (inHeader.cursor.toNat + k)) ∧
    (∀ k < 4, Memory.read [(0xD0, 1#8)] (inPayload.cursor.toNat + k) =
      Memory.read inPayload.image (inPayload.cursor.toNat + k)) ∧
    inHeader.state = 4#5 ∧ inHeader.phase = .issue ∧ inPayload.state = 11#5 ∧
    inPayload.phase = .issue ∧
    get (exec .hdr { inHeader with image := [(0xBF, 1#8)] }) State.txw = some 0x0100#32 := by
  decide

theorem witness_wait_lasts :
    noReset ({ issuing 2#5 with delay := 1#32 } : State).script ∧
      noReset ({ issuing 2#5 with delay := 1#32 } : State).loop ∧
      ∃ t, core.run 1 { issuing 2#5 with delay := 1#32 } = .next t :=
  ⟨(by decide : Input.rst ∉ ([] : List Input)), (by decide : Input.rst ∉ ([] : List Input)), _, rfl⟩
theorem witness_wait_ends :
    ({ issuing 15#5 with script := quietCycles 1 } : State).script =
      quietCycles ((issuing 15#5).delay.toNat + 1) ++ [] := rfl

/-- A peer's reply without a wait. -/
def reply (w : Word) : Reply := { waitAccept := 0, waitAnswer := 1, word := w }

theorem witness_exchange_runs :
    exchangeState (issuing 17#5).state = true ∧ (issuing 17#5).phase = .issue ∧
      ({ issuing 17#5 with script := (reply 0#32).cycles } : State).script =
        (reply 0#32).cycles ++ [] := by decide
theorem witness_alternate :
    exchangeState (answered 3#5 0#32).state = true ∧ noReset [Input.drain] ∧
      (trace 1 (moved (answered 3#5 0#32) (.clock (answer 5#32)))) = [.rx 5#32] :=
  ⟨by decide, (by decide : Input.rst ∉ [Input.drain]), by decide⟩

/-- Two completions of one request, and an unrequested one, which PHASE ISSUE ignores (93 §3). -/
theorem witness_second_completion :
    refusal (step (moved { issuing 3#5 with request := .answered } (.clock (answer 0#32)))) =
        some .secondCompletion ∧
      get (step (moved (issuing 0#5) (.clock (answer 0#32)))) State.request = some .none ∧
      get (step (moved (answered 3#5 0#32) (.clock (answer 0#32))))
        (fun t => (t.state, t.request)) = some (4#5, .answered) ∧
      get (step (moved { issuing 3#5 with phase := .req, request := .answered } (.clock accept)))
        (fun t => (t.phase, t.request)) = some (.rsp, .outstanding) ∧
      get (step (moved { issuing 3#5 with phase := .req } .rst)) State.request =
        some .outstanding := by decide
/-- A poll that is answered not ready in each of its two forms of the loop, and begins anew. -/
theorem witness_polling :
    ({ issuing 1#5 with
      cfg := { lenWordMode := .unsigned, fClk := 1 }
      loop := pollCycles 1 [reply 0#32] } : State).loop =
        pollCycles (delayTicks { lenWordMode := .unsigned, fClk := 1 }).toNat [reply 0#32] ∧
      (reply 0#32).word.extractLsb' 16 16 ≠ 0x7202#16 ∧
      (reply 0#32).word.extractLsb' 16 16 ≠ 0x0075#16 ∧
      ({ issuing 1#5 with phase := .req } : State).moves = [] ∧
      get (core.run 7 { issuing 1#5 with
        cfg := { lenWordMode := .unsigned, fClk := 1 }
        loop := pollCycles 1 [reply 0#32] }) (fun t => (t.state, t.phase, t.txw)) =
        some (1#5, .req, 0x6202#32) := by decide

/-- The state that starts the header phase, with 96 replies scripted. -/
theorem witness_header_phase :
    ∃ (s : State) (rs : List Reply) (rest : List Input), s.state = 4#5 ∧ s.phase = .issue ∧
      s.cursor = 0#32 ∧ rs.length = 96 ∧ s.script = cyclesOf rs ++ rest :=
  ⟨{ issuing 4#5 with script := cyclesOf (List.replicate 96 (reply 0#32)) ++ [] },
    List.replicate 96 (reply 0#32), [], rfl, rfl, rfl, List.length_replicate, rfl⟩

/-- The four echoes of program P1. -/
def echoes : List Reply :=
  [reply 0x00C00000#32, reply 0x00C40000#32, reply 0x00C80000#32, reply 0x00CC0000#32]

theorem witness_payload_phase :
    ∃ (s : State) (rest : List Input), s.state = 11#5 ∧ s.phase = .issue ∧ s.cursor = 0xC0#32 ∧
      s.padlen.toNat % 16 = 0 ∧ 0xC0 < s.padlen.toNat ∧ s.padlen.toNat ≤ 0x40000 ∧
      echoes.length = (s.padlen.toNat - 0xC0) / 4 ∧
      (∀ k (h : k < echoes.length),
        echoes[k].word.extractLsb' 16 16 = (payOffset k).setWidth 16) ∧
      s.script = cyclesOf echoes ++ rest :=
  ⟨{ inPayload with cursor := 0xC0#32, script := cyclesOf echoes ++ [] }, [], rfl, rfl, rfl,
    by decide, by decide, by decide, by decide, by decide, rfl⟩

/-- The peer of program P1, with one more poll before each ready one. -/
def peer : Peer where
  hsRetry := [reply 0#32]
  hsReady := reply 0x72020000#32
  boot := reply 0#32
  header := List.replicate 96 (reply 0#32)
  headerEnd := reply 0#32
  keySync := reply 0#32
  keyReq := reply 0#32
  token := reply 0x73AB0000#32
  ack := reply 0#32
  length := reply 0x00340000#32
  payload := echoes
  finStart := reply 0#32
  finRetry := [reply 0#32]
  finReady := reply 0x00750000#32
  finReq := reply 0#32
  finCrc := reply 0x26120000#32

/-- The quiescent state of program P1 with the whole session scripted. -/
def beforeSession : State := { base with len := 0xC4#32, script := peer.script 10 }

theorem witness_session :
    beforeSession.busy = false ∧ beforeSession.cut = false ∧
      0xC0 ≤ beforeSession.len.toNat ∧ beforeSession.len.toNat ≤ 0x40000 ∧
      (delayTicks beforeSession.cfg).toNat = 10 ∧
      beforeSession.script = peer.script 10 ++ [] :=
  ⟨rfl, rfl, by decide, by decide, by decide, (List.append_nil _).symm⟩
theorem witness_peer_cooperates : peer.Cooperates beforeSession where
  hsRetry := by decide
  hsReady := by decide
  header := List.length_replicate
  token := by decide
  payload := by decide
  echo := by decide
  finRetry := by decide
  finReady := by decide
/-- The last payload frame and the final CRC of program P1, from the terms of Safety. -/
theorem test_p1_terms :
    payFrameAt beforeSession peer.seed 3 = 0x5E628572#32 ∧
      peer.finalCrc beforeSession = 0x2612#16 := by decide +kernel

end Sys2Proof.Tests
end

/-! SUPPORT. Proofs of the scope statements (00_scope.md): the delay in cycles (R10), the frame outside
the block (R12) and the protocol sequence (R3). -/

namespace Sys2Proof.Machine

open Sys2Proof.Safety

section Scope

variable {s t : State}

/-! ## DELAY_TICKS (00_scope.md rule R10) -/

/-- The count is cut nowhere when the 32-bit counter can hold it. -/
theorem delayTicks_toNat (cfg : Config) (h : cfg.fClk ≤ 100 * (2 ^ 32 - 1)) :
    (delayTicks cfg).toNat = (cfg.fClk + 99) / 100 := by
  have hfits : (cfg.fClk + 99) / 100 < 2 ^ 32 := by omega
  rw [delayTicks, BitVec.toNat_ofNat, Nat.mod_eq_of_lt hfits]

/-- Settles O22: DELAY_TICKS is the ceiling of F_CLK / 100. -/
theorem delayTicksLastTenMilliseconds : Obligations.DelayTicksLastTenMilliseconds := by
  intro cfg h
  rw [delayTicks_toNat cfg h]
  exact ⟨by omega, fun n hn => by omega⟩

/-! ## What stands outside the block (00_scope.md rule R12) -/

/-- The part of a state that is no element of 10_state.md rule R20. -/
structure Outside where
  image : Memory
  cfg : Config
  pins : Pins
  script : List Input
  loop : List Input
  cut : Bool
  request : Request
  rdata : Word

/-- What of `s` stands outside the block. -/
def State.outside (s : State) : Outside where
  image := s.image
  cfg := s.cfg
  pins := s.pins
  script := s.script
  loop := s.loop
  cut := s.cut
  request := s.request
  rdata := s.rdata

theorem State.waitStep_outside (ready again : BitVec 5) (s : State) :
    (s.waitStep ready again).outside = s.outside := by
  by_cases h : s.delay = 0#32
  · rw [State.waitStep_leaves _ _ h]; rfl
  · rw [State.waitStep_counts _ _ h]; rfl

theorem State.tokenDone_outside (r : Word) (s : State) :
    (State.tokenDone r s).outside = s.outside := by
  unfold State.tokenDone
  split <;> rfl

theorem State.payDone_outside (r : Word) (s : State) :
    (State.payDone r s).outside = s.outside := by
  unfold State.payDone
  split <;> rfl

/-- An exchange reaches outside the block no further than its pre-actions and its completion do. -/
theorem exchange_outside {pre : State → State} {frame : State → Word}
    {complete : Word → State → State} (h : exchange pre frame complete s = .next t)
    (hpre : ∀ s, (pre s).outside = s.outside)
    (hcomplete : ∀ r s, (complete r s).outside = s.outside) : t.outside = s.outside := by
  rcases exchange_cases h with
    ⟨-, rfl⟩ | ⟨-, -, rfl⟩ | ⟨-, -, rfl⟩ | ⟨-, -, rfl⟩ | ⟨-, -, -, rfl⟩ | ⟨-, -, -, rfl⟩
  · exact hpre s
  · rfl
  · rfl
  · rfl
  · rfl
  · exact hcomplete s.pins.rxWord { s with phase := .issue }

/-- A register read that answers returns the register and changes nothing else (R174). -/
theorem regRead_effect {off : BitVec 6} (h : exec (.regRead off) s = .next t) :
    t = { s with rdata := s.regAt off } := by
  simp only [exec, execRegRead] at h
  split at h <;> cases h
  rfl

/-- No operation but REG_READ changes anything outside the block. -/
theorem exec_outside {i : Instr} (hi : ∀ off, i ≠ .regRead off) (h : exec i s = .next t) :
    t.outside = s.outside := by
  cases i with
  | regRead off => exact absurd rfl (hi off)
  | idle | done | error | fold => cases h; rfl
  | hsWait | finWait => cases h; exact State.waitStep_outside _ _ s
  | start => rcases start_effect h with ⟨-, rfl⟩ | ⟨-, -, -, rfl⟩ | ⟨-, -, rfl⟩ <;> rfl
  | lenWrite v => rcases lenWrite_effect h with ⟨-, rfl⟩ | ⟨-, rfl⟩ <;> rfl
  | pay => exact exchange_outside h (fun _ => rfl) State.payDone_outside
  | keyReq2 => exact exchange_outside h (fun _ => rfl) State.tokenDone_outside
  | hsPoll | bootreq | hdr | hdrEnd | keySync | keyReq1 | keyAck | len | finStart | finPoll
  | finReq | finCrc => exact exchange_outside h (fun _ => rfl) (fun _ _ => rfl)

/-- Settles O38: REG_READ sets the read data only, every other operation leaves all that stands outside
the block. -/
theorem noOperationWritesMemory : Obligations.NoOperationWritesMemory := by
  intro i s t h
  by_cases hr : ∃ off, i = .regRead off
  · obtain ⟨off, rfl⟩ := hr
    obtain rfl := regRead_effect h
    exact ⟨fun _ => rfl, rfl, rfl, rfl, rfl, rfl, rfl, fun hi => absurd rfl (hi off)⟩
  · have ho := exec_outside (fun off hi => hr ⟨off, hi⟩) h
    obtain ⟨himage, hcfg, hpins, hscript, hloop, hcut, hrequest, hrdata⟩ := Outside.mk.inj ho
    exact ⟨fun a => by rw [himage], hcfg, hpins, hscript, hloop, hcut, hrequest, fun _ => hrdata⟩

/-! ## The protocol sequence (00_scope.md rule R3, 30_encoding.md rule R85) -/

/-- The changes of STATE by START and along R85's order, with the two poll loops. -/
def sequenceEdges : List (Nat × Nat) :=
  [(0, 1), (18, 1), (19, 1), (0, 19), (18, 19),
   (1, 2), (2, 1), (2, 3), (3, 4), (4, 5), (5, 6), (6, 7), (7, 8), (8, 9), (9, 10), (10, 11),
   (10, 12), (11, 12), (12, 13), (13, 14), (14, 15), (15, 14), (15, 16), (16, 17), (17, 18)]

/-- From code `a` to code `b` STATE rests, takes an edge of the sequence, or fails an exchange. -/
abbrev Follows (a b : BitVec 5) : Prop :=
  b = a ∨ (a.toNat, b.toNat) ∈ sequenceEdges ∨ (exchangeState a = true ∧ b = 19#5)

theorem Follows.of_codes {a b : BitVec 5} (hs : s.state = a) (ht : t.state = b)
    (h : Follows a b) : Follows s.state t.state := by
  rw [hs, ht]
  exact h

/-- A choice between two successors follows the sequence when both do. -/
theorem Follows.ite {a b c : BitVec 5} {p : Prop} [Decidable p] (hb : Follows a b)
    (hc : Follows a c) : Follows a (if p then b else c) := by
  split
  · exact hb
  · exact hc

/-- A completed exchange moves STATE along the sequence, or to ERROR when the response is rejected
(KEY_REQ2, PAY). -/
theorem Completed.follows (h : Completed s t) : Follows s.state t.state := by
  rcases h with ⟨hs, rfl⟩ | ⟨hs, rfl⟩ | ⟨hs, rfl⟩ | ⟨hs, rfl⟩ | ⟨hs, rfl⟩ | ⟨hs, rfl⟩ | ⟨hs, rfl⟩ |
    ⟨hs, -, rfl⟩ | ⟨hs, -, rfl⟩ | ⟨hs, rfl⟩ | ⟨hs, rfl⟩ | ⟨hs, -, rfl⟩ | ⟨hs, -, rfl⟩ | ⟨hs, rfl⟩ |
    ⟨hs, rfl⟩ | ⟨hs, rfl⟩
  · exact .of_codes hs rfl (by decide : Follows 1#5 2#5)
  · exact .of_codes hs rfl (by decide : Follows 14#5 15#5)
  · exact .of_codes hs rfl (by decide : Follows 3#5 4#5)
  · exact .of_codes hs rfl (.ite (by decide : Follows 4#5 5#5) (by decide : Follows 4#5 4#5))
  · exact .of_codes hs rfl (by decide : Follows 5#5 6#5)
  · exact .of_codes hs rfl (by decide : Follows 6#5 7#5)
  · exact .of_codes hs rfl (by decide : Follows 7#5 8#5)
  · exact .of_codes hs rfl (by decide : Follows 8#5 9#5)
  · exact .of_codes hs rfl (by decide : Follows 8#5 19#5)
  · exact .of_codes hs rfl (by decide : Follows 9#5 10#5)
  · exact .of_codes hs rfl (.ite (by decide : Follows 10#5 11#5) (by decide : Follows 10#5 12#5))
  · exact .of_codes hs rfl (.ite (by decide : Follows 11#5 11#5) (by decide : Follows 11#5 12#5))
  · exact .of_codes hs rfl (by decide : Follows 11#5 19#5)
  · exact .of_codes hs rfl (by decide : Follows 13#5 14#5)
  · exact .of_codes hs rfl (by decide : Follows 16#5 17#5)
  · exact .of_codes hs rfl (by decide : Follows 17#5 18#5)

/-- A block cycle moves STATE along the sequence, or to ERROR when its exchange fails. -/
theorem CycleEffect.follows (h : CycleEffect s t) : Follows s.state t.state := by
  cases h with
  | rest ht | count _ _ ht | issue _ _ _ _ ht | issuePay _ _ _ ht | accept _ _ _ ht =>
    subst ht; exact .inl rfl
  | leaveHs hs _ ht =>
    subst ht
    exact .of_codes hs rfl (.ite (by decide : Follows 2#5 3#5) (by decide : Follows 2#5 1#5))
  | leaveFin hs _ ht =>
    subst ht
    exact .of_codes hs rfl (.ite (by decide : Follows 15#5 16#5) (by decide : Follows 15#5 14#5))
  | fold hs ht => subst ht; exact .of_codes hs rfl (by decide : Follows 12#5 13#5)
  | fail he _ _ _ ht => subst ht; exact .inr (.inr ⟨he, rfl⟩)
  | complete _ _ _ _ hc => exact hc.follows

/-- Outside a session STATE is one of the three quiescent codes. -/
theorem Follows.of_not_busy {b : BitVec 5} (hb : s.busy = false) (h0 : Follows 0#5 b)
    (h18 : Follows 18#5 b) (h19 : Follows 19#5 b) : Follows s.state b := by
  rcases busy_eq_false_iff.1 hb with hs | hs | hs
  · rw [hs]; exact h0
  · rw [hs]; exact h18
  · rw [hs]; exact h19

/-- START leaves a quiescent state for HS_POLL, or for ERROR with a LEN out of range; else STATE
rests. -/
theorem start_follows (h : exec .start s = .next t) : Follows s.state t.state := by
  rcases start_effect h with ⟨-, rfl⟩ | ⟨hb, -, -, rfl⟩ | ⟨hb, -, rfl⟩
  · exact .inl rfl
  · exact .of_not_busy (b := 1#5) hb (by decide) (by decide) (by decide)
  · exact .of_not_busy (b := 19#5) hb (by decide) (by decide) (by decide)

/-- A step resets the block, or moves STATE along the sequence. -/
theorem step_follows (h : step s = .next t) :
    (s.moves.head? = some .rst ∧ t.state = 0#5) ∨ Follows s.state t.state := by
  cases step_effect h with
  | cycle p rest i _ _ s0 h0 hd he =>
    have hmove : Follows s0.state t.state := (cycle_effect hd he).follows
    subst h0; exact .inr hmove
  | start v rest _ _ s0 h0 he =>
    have hmove : Follows s0.state t.state := start_follows he
    subst h0; exact .inr hmove
  | lenWrite v rest _ s0 h0 he =>
    subst h0
    rcases lenWrite_effect he with ⟨-, rfl⟩ | ⟨-, rfl⟩ <;> exact .inr (.inl rfl)
  | rst rest hs ht => subst ht; exact .inl ⟨by rw [hs]; rfl, rfl⟩
  | read _ _ _ _ _ ht | ignored _ _ _ _ ht | image _ _ _ _ _ _ ht | drain _ _ ht
  | relink _ _ ht => subst ht; exact .inr (.inl rfl)

/-- Settles O40: what a step can do to STATE, but for the rest that the hypothesis excludes. -/
theorem stateFollowsTheSequence : Obligations.StateFollowsTheSequence := by
  intro s t h hne
  rcases step_follows h with hreset | hrest | hmove
  · exact .inl hreset
  · exact absurd hrest hne
  · exact .inr hmove

end Scope

end Sys2Proof.Machine

/-! SUPPORT. Proofs of the state statements (10_state.md): the register window (R25 to R38), the outputs
(R40, R42 and R43), what a session keeps (R28, R40), the pins (R40), the selection of an operation (R21)
and the reset state (R46). -/

namespace Sys2Proof.Machine

open Sys2Proof.Safety

section Window

variable {s t : State}

/-! ## Host accesses (10_state.md rules R25, R26, R37 and R38) -/

/-- What breaks the drain duty: a START that would begin a session after a cut exchange (R222). -/
theorem breaksDrainDuty_iff {a : Access} :
    s.breaksDrainDuty a = true ↔
      s.cut = true ∧ s.busy = false ∧ (0xC0 ≤ s.len.toNat ∧ s.len.toNat ≤ 0x40000) ∧
        decodeAccess a = .ok .start := by
  simp only [State.breaksDrainDuty, Bool.and_eq_true, Bool.not_eq_true', preconditionOK_iff,
    and_assoc, decode]
  split
  · rename_i hd; simp [hd]
  · rename_i hd; simp [show decodeAccess a ≠ .ok .start from hd]

/-- Only a START breaks the drain duty. -/
theorem breaksDrainDuty_of_ne_start {a : Access} (h : decodeAccess a ≠ .ok .start) :
    s.breaksDrainDuty a ≠ true := fun hduty => by
  obtain ⟨-, -, -, hstart⟩ := breaksDrainDuty_iff.1 hduty
  exact h hstart

/-- A host access that decodes runs its command, unless the drain duty stops it. -/
theorem step_host_runs {a : Access} {rest : List Input} {i : Instr}
    (hm : s.moves = .host a :: rest) (hd : decodeAccess a = .ok i)
    (hduty : s.breaksDrainDuty a ≠ true) : step s = exec i { s with script := rest } := by
  have hduty' : ({ s with script := rest } : State).breaksDrainDuty a ≠ true := hduty
  rw [step_of_moves hm, applyInput, hostAccess, if_neg hduty', runWord, decode, hd]

/-- A host access that does not decode is answered by its rejection. -/
theorem step_host_rejected {a : Access} {rest : List Input} {r : Reject}
    (hm : s.moves = .host a :: rest) (hd : decodeAccess a = .error r) :
    step s = rejected r { s with script := rest } := by
  have hduty : ({ s with script := rest } : State).breaksDrainDuty a ≠ true :=
    breaksDrainDuty_of_ne_start (by rw [hd]; nofun)
  rw [step_of_moves hm, applyInput, hostAccess, if_neg hduty, runWord, decode, hd]

/-- A START that breaks the drain duty is refused (R222). -/
theorem step_host_undrained {a : Access} {rest : List Input} (hm : s.moves = .host a :: rest)
    (hduty : s.breaksDrainDuty a = true) : step s = .refused .startBeforeDrain := by
  have hduty' : ({ s with script := rest } : State).breaksDrainDuty a = true := hduty
  rw [step_of_moves hm, applyInput, hostAccess, if_pos hduty']

/-- A START that answers a next state is START's own meaning. -/
theorem step_start {v : Word} {rest : List Input}
    (hm : s.moves = .host ⟨true, 4, 0#32, v⟩ :: rest) (hv : v.getLsbD 0 = true)
    (h : step s = .next t) : exec .start { s with script := rest } = .next t := by
  by_cases hduty : s.breaksDrainDuty ⟨true, 4, 0#32, v⟩ = true
  · rw [step_host_undrained hm hduty] at h
    cases h
  · rwa [step_host_runs hm (decodeAccess_start v hv) hduty] at h

/-- The one rejection that answers a next state is the ignored write, and it changes nothing. -/
theorem rejected_next {r : Reject} (h : rejected r s = .next t) : t = s := by
  cases r <;> cases h
  rfl

/-- An access beyond the window is rejected for its offset, whatever else it is (R25). -/
theorem decodeAccess_outside {a : Access} (h : 64 ≤ a.offset.toNat) :
    decodeAccess a = .error (.outsideWindow a.offset) := by
  rw [decodeAccess, if_pos h]

/-- An access inside the window is rejected for its size or its alignment (R38). -/
theorem decodeAccess_malformed {a : Access} (h : a.offset.toNat < 64)
    (hbad : a.size ≠ 4 ∨ a.offset.toNat % 4 ≠ 0) :
    decodeAccess a = .error (.accessSize a.size) ∨
      decodeAccess a = .error (.misaligned a.offset) := by
  rw [decodeAccess, if_neg (Nat.not_le.2 h)]
  by_cases hsize : a.size = 4
  · have halign : a.offset.extractLsb' 0 2 ≠ 0#2 := fun e =>
      hbad.elim (· hsize) (· ((extract_two_eq_zero_iff _).1 e))
    exact .inr (by rw [if_neg (not_not.2 hsize), if_pos halign])
  · exact .inl (if_pos hsize)

/-- A 32-bit write that names no writable register takes its move and changes nothing else (R37). -/
theorem step_ignored_write {off v : Word} {rest : List Input}
    (hm : s.moves = .host ⟨true, 4, off, v⟩ :: rest) (h4 : off.toNat % 4 = 0)
    (hoff : off.toNat < 64) (h0 : off ≠ 0#32) (h8 : off ≠ 8#32) :
    step s = .next { s with script := rest } :=
  step_host_rejected hm (decodeAccess_ignored off v hoff h4 h0 h8)

/-- The operand check of a register read (R38). -/
theorem regRead_wf_iff (off : BitVec 6) :
    (Instr.regRead off).wf = true ↔ off.toNat % 4 = 0 := by
  rw [Instr.wf, beq_iff_eq, extract_two_eq_zero_iff]

/-- Settles O7: the operand check of REG_READ, and the decoder's first check. -/
theorem accessesWithoutMeaningStop : Obligations.AccessesWithoutMeaningStop := by
  refine ⟨fun s off h => ?_, fun s a rest hm h => ?_⟩
  · exact if_neg (mt (regRead_wf_iff off).1 h)
  · exact step_host_rejected hm (decodeAccess_outside h)

/-- Settles O8: a malformed access is rejected, an aligned read is REG_READ, and a write that does not
decode changes nothing. -/
theorem windowAccessRules : Obligations.WindowAccessRules := by
  refine ⟨fun s a rest hm hoff hbad => ?_, fun s off v rest hm hoff h4 => ?_,
    fun s t a rest hm hw h hne => ?_⟩
  · rcases decodeAccess_malformed hoff hbad with hd | hd
    · exact ⟨_, step_host_rejected hm hd⟩
    · exact ⟨_, step_host_rejected hm hd⟩
  · have hd := decodeAccess_read off v hoff h4
    have hduty : s.breaksDrainDuty ⟨false, 4, off, v⟩ ≠ true :=
      breaksDrainDuty_of_ne_start (by rw [hd]; nofun)
    have hwf : (Instr.regRead (off.setWidth 6)).wf = true := by
      rw [regRead_wf_iff, BitVec.toNat_setWidth, Nat.mod_eq_of_lt hoff]
      exact h4
    exact ⟨_, (step_host_runs hm hd hduty).trans (if_pos hwf)⟩
  · cases hd : decodeAccess a with
    | error r =>
      rw [step_host_rejected hm hd] at h
      exact absurd (rejected_next h) hne
    | ok i =>
      obtain ⟨-, -, -, hread | ⟨-, hctrl, hbit, -⟩ | ⟨-, hlen, -⟩⟩ := decodeAccess_ok hd
      · rw [hw] at hread
        cases hread.1
      · exact .inl ⟨hctrl, hbit⟩
      · exact .inr hlen

/-! ## The fields of the registers (10_state.md rules R27, R32, R33 and R36) -/

theorem field_zero {w : Nat} (x : BitVec w) : field 0 x = x.setWidth 32 := BitVec.shiftLeft_zero _

/-- A bit of a register that holds one field. -/
theorem field_getLsbD {w : Nat} (lo k : Nat) (x : BitVec w) :
    (field lo x).getLsbD k = (decide (lo ≤ k ∧ k < 32) && x.getLsbD (k - lo)) := by
  rw [field, BitVec.getLsbD_shiftLeft, BitVec.getLsbD_setWidth]
  by_cases hk : lo ≤ k ∧ k < 32
  · simp [hk, show k - lo < 32 by omega]
  · simp [hk]; omega

/-- A field is read back where it was put. -/
theorem field_extract_same {w lo : Nat} (x : BitVec w) (h : lo + w ≤ 32) :
    (field lo x).extractLsb' lo w = x := by
  ext i hi
  rw [BitVec.getElem_extractLsb', field_getLsbD]
  have h1 : lo ≤ lo + i ∧ lo + i < 32 := by omega
  simp [h1, BitVec.getLsbD_eq_getElem hi]

/-- A field is 0 in every range of bits beside it. -/
theorem field_extract_apart {w lo k n : Nat} (x : BitVec w) (h : k + n ≤ lo ∨ lo + w ≤ k) :
    (field lo x).extractLsb' k n = 0#n := by
  ext i hi
  rw [BitVec.getElem_extractLsb', field_getLsbD, BitVec.getElem_zero]
  rcases h with h | h
  · have h1 : ¬ (lo ≤ k + i ∧ k + i < 32) := by omega
    rw [decide_eq_false h1, Bool.false_and]
  · rw [BitVec.getLsbD_of_ge x _ (by omega), Bool.and_false]

/-- A one-bit field is read back where it was put. -/
theorem field_bit_same {lo : Nat} (b : Bool) (h : lo < 32) :
    (field lo (BitVec.ofBool b)).getLsbD lo = b := by
  rw [field_getLsbD]
  simp [h]

/-- A field's bits beside it are 0. -/
theorem field_bit_apart {w lo k : Nat} (x : BitVec w) (h : k < lo ∨ lo + w ≤ k) :
    (field lo x).getLsbD k = false := by
  rw [field_getLsbD]
  rcases h with h | h
  · rw [decide_eq_false (by omega), Bool.false_and]
  · rw [BitVec.getLsbD_of_ge x _ (by omega), Bool.and_false]

/-- Bits above a zero-extended value are 0. -/
theorem extract_setWidth_above {w k n : Nat} (x : BitVec w) (h : w ≤ k) :
    (x.setWidth 32).extractLsb' k n = 0#n := by
  rw [← field_zero]
  exact field_extract_apart x (.inr (by omega))

/-! ## STATUS, field by field (10_state.md rule R27) -/

@[simp] theorem State.statusWord_state (s : State) : s.statusWord.extractLsb' 0 5 = s.state := by
  simp [State.statusWord, BitVec.extractLsb'_or, field_extract_same, field_extract_apart]

theorem State.statusWord_busy (s : State) : s.statusWord.getLsbD 5 = s.busy := by
  simp (disch := decide) only [State.statusWord, BitVec.getLsbD_or, field_bit_same,
    field_bit_apart, Bool.false_or, Bool.or_false]

theorem State.statusWord_done (s : State) : s.statusWord.getLsbD 6 = s.stDone := by
  simp (disch := decide) only [State.statusWord, BitVec.getLsbD_or, field_bit_same,
    field_bit_apart, Bool.false_or, Bool.or_false]

theorem State.statusWord_err (s : State) : s.statusWord.getLsbD 7 = s.stErr := by
  simp (disch := decide) only [State.statusWord, BitVec.getLsbD_or, field_bit_same,
    field_bit_apart, Bool.false_or, Bool.or_false]

@[simp] theorem State.statusWord_errcode (s : State) :
    s.statusWord.extractLsb' 8 3 = if s.stErr then s.errcode else 0#3 := by
  simp [State.statusWord, BitVec.extractLsb'_or, field_extract_same, field_extract_apart]

theorem State.statusWord_crcMatch (s : State) :
    s.statusWord.getLsbD 11 = (s.stDone && s.crcMatch) := by
  simp (disch := decide) only [State.statusWord, BitVec.getLsbD_or, field_bit_same,
    field_bit_apart, Bool.false_or, Bool.or_false]

theorem State.statusWord_linkEn (s : State) : s.statusWord.getLsbD 12 = s.linkEn := by
  simp (disch := decide) only [State.statusWord, BitVec.getLsbD_or, field_bit_same,
    field_bit_apart, Bool.false_or, Bool.or_false]

@[simp] theorem State.statusWord_reserved13 (s : State) : s.statusWord.extractLsb' 13 3 = 0#3 := by
  simp [State.statusWord, BitVec.extractLsb'_or, field_extract_apart]

@[simp] theorem State.statusWord_errstate (s : State) :
    s.statusWord.extractLsb' 16 5 = if s.stErr then s.errstate else 0#5 := by
  simp [State.statusWord, BitVec.extractLsb'_or, field_extract_same, field_extract_apart]

@[simp] theorem State.statusWord_phase (s : State) :
    s.statusWord.extractLsb' 21 2 = s.phase.bits := by
  simp [State.statusWord, BitVec.extractLsb'_or, field_extract_same, field_extract_apart]

theorem State.statusWord_pollhit (s : State) : s.statusWord.getLsbD 23 = s.pollhit := by
  simp (disch := decide) only [State.statusWord, BitVec.getLsbD_or, field_bit_same,
    field_bit_apart, Bool.false_or, Bool.or_false]

@[simp] theorem State.statusWord_reserved24 (s : State) : s.statusWord.extractLsb' 24 8 = 0#8 := by
  simp [State.statusWord, BitVec.extractLsb'_or, field_extract_apart]

theorem stDone_iff : s.stDone = true ↔ s.state = 18#5 := beq_iff_eq

theorem stErr_iff : s.stErr = true ↔ s.state = 19#5 := beq_iff_eq

/-- Settles O10: the fields of STATUS one by one; its offset is none that a write reaches. -/
theorem statusFields : Obligations.StatusFields := by
  refine ⟨fun s => ?_, by decide, fun s v rest hm => ?_⟩
  · refine ⟨s.statusWord_state, ?_, ?_, ?_, ?_, ?_, s.statusWord_linkEn, ?_,
      s.statusWord_reserved13, ?_, s.statusWord_phase, s.statusWord_pollhit,
      s.statusWord_reserved24⟩
    · rw [State.statusWord_busy, busy_eq_true_iff]
    · rw [State.statusWord_done, stDone_iff]
    · rw [State.statusWord_err, stErr_iff]
    · simp only [State.statusWord_errcode, stErr_iff]
    · rw [State.statusWord_crcMatch, Bool.and_eq_true, stDone_iff]
    · rw [State.statusWord_linkEn, State.statusWord_busy, State.linkEn]
    · simp only [State.statusWord_errstate, stErr_iff]
  · exact step_ignored_write hm (by decide) (by decide) (by decide) (by decide)

/-- Settles O11: each output is the flag that STATUS shows. -/
theorem outputsFollowStatus : Obligations.OutputsFollowStatus := fun s =>
  ⟨s.statusWord_busy.symm, s.statusWord_done.symm, s.statusWord_err.symm, s.statusWord_busy.symm,
    beq_iff_eq, rfl⟩

/-! ## Reserved offsets and fields (10_state.md rule R37) -/

/-- The offsets past the last register read 0. -/
theorem State.regAt_reserved (s : State) {off : BitVec 6} (h : 0x2C ≤ off.toNat) :
    s.regAt off = 0#32 := by
  unfold State.regAt
  split
  case h_11 => rfl
  all_goals omega

@[simp] theorem State.regAt_ctrl (s : State) : s.regAt 0x00#6 = 0#32 := rfl

theorem State.paramsWord_reserved (s : State) : s.paramsWord.extractLsb' 16 16 = 0#16 := by
  rw [State.paramsWord, BitVec.extractLsb'_or, field_extract_apart _ (.inr (by decide)),
    field_extract_apart _ (.inr (by decide)), BitVec.or_zero]

/-- Settles O6: register by register what is reserved reads 0, and a write that reaches neither START
nor LEN is ignored. -/
theorem reservedAndReadOnlyWindow : Obligations.ReservedAndReadOnlyWindow := by
  refine ⟨fun s off h => s.regAt_reserved h, fun s => ?_,
    fun s off v rest hm h4 hoff h0 h8 => step_ignored_write hm h4 hoff h0 h8,
    decodeAccess_start, fun s v rest hm hbit => ?_, State.regAt_ctrl⟩
  · exact ⟨by rw [State.regAt_ctrl]; rfl, s.statusWord_reserved13, s.statusWord_reserved24,
      extract_setWidth_above s.crc (by decide), s.paramsWord_reserved,
      extract_setWidth_above s.peerCrc (by decide)⟩
  · exact step_host_rejected hm (decodeAccess_ctrl_zero v hbit)

end Window

section Session

variable {s t : State}

/-! ## The end of a session (10_state.md rule R42, 60_exceptions.md rule R205) -/

/-- A step out of quiescence is a START with LEN in range. -/
theorem step_begins_session (h : step s = .next t) (hb : s.busy = false) (hb' : t.busy = true) :
    t.state = 1#5 ∧ 0xC0 ≤ s.len.toNat ∧ s.len.toNat ≤ 0x40000 ∧
      ∃ v, s.moves.head? = some (.host ⟨true, 4, 0x00#32, v⟩) ∧ v.getLsbD 0 = true := by
  have hne : t.busy ≠ s.busy := by rw [hb, hb']; decide
  cases step_effect h with
  | cycle p rest i _ _ s0 h0 hd he =>
    have hb0 : s0.busy = s.busy := by rw [h0]; rfl
    have hrest : t = s0 := cycle_of_not_busy hd he (hb0.trans hb)
    exact absurd (hrest ▸ hb0) hne
  | start v rest hs hv s0 h0 he =>
    subst h0
    rcases start_effect he with ⟨-, rfl⟩ | ⟨-, hlo, hhi, rfl⟩ | ⟨-, -, rfl⟩
    · exact absurd rfl hne
    · exact ⟨rfl, hlo, hhi, v, by rw [hs]; rfl, hv⟩
    · cases hb'
  | lenWrite v rest _ s0 h0 he =>
    subst h0
    rcases lenWrite_effect he with ⟨-, rfl⟩ | ⟨-, rfl⟩ <;> exact absurd rfl hne
  | rst rest _ ht => subst ht; cases hb'
  | read _ _ _ _ _ ht | ignored _ _ _ _ ht | image _ _ _ _ _ _ ht | drain _ _ ht
  | relink _ _ ht => subst ht; exact absurd rfl hne

/-- No edge of the sequence enters IDLE: only a reset does. -/
theorem Follows.of_idle {a : BitVec 5} (h : Follows a 0#5) : a = 0#5 := by
  have hedge : ∀ e ∈ sequenceEdges, e.2 ≠ 0 := by decide
  rcases h with hrest | hmove | ⟨-, herror⟩
  · exact hrest.symm
  · exact absurd rfl (hedge _ hmove)
  · cases herror

/-- A step out of a session enters DONE or ERROR, or is a reset. -/
theorem step_ends_session (h : step s = .next t) (hb : s.busy = true) (hb' : t.busy = false) :
    t.state = 18#5 ∨ t.state = 19#5 ∨ (s.moves.head? = some .rst ∧ t.state = 0#5) := by
  rcases busy_eq_false_iff.1 hb' with hidle | hdone | herror
  · rcases step_follows h with hreset | hmove
    · exact .inr (.inr hreset)
    · rw [hidle] at hmove
      exact absurd hmove.of_idle (busy_eq_true_iff.1 hb).1
  · exact .inl hdone
  · exact .inr (.inl herror)

/-- A reset that is next resets the block. -/
theorem step_rst {rest : List Input} (hm : s.moves = .rst :: rest) :
    step s = .next ({ s with script := rest } : State).resetBlock := step_of_moves hm

/-- Settles O45: what begins a session and what ends it. -/
theorem linkReleasedWhenTheSessionEnds : Obligations.LinkReleasedWhenTheSessionEnds := by
  refine ⟨fun s => s.statusWord_busy.symm, fun s t h => ⟨step_begins_session h,
    step_ends_session h, fun hend => busy_eq_false_iff.2 (.inr hend), fun hm => ?_,
    fun v hm hv hb hlo hhi => ?_⟩⟩
  · obtain ⟨rest, hm⟩ := List.head?_eq_some_iff.1 hm
    rw [step_rst hm] at h
    cases h
    rfl
  · obtain ⟨rest, hm⟩ := List.head?_eq_some_iff.1 hm
    rcases start_effect (step_start hm hv h) with ⟨hbusy, -⟩ | ⟨-, -, -, rfl⟩ | ⟨-, hrange, -⟩
    · exact absurd (hb.symm.trans hbusy) Bool.false_ne_true
    · rfl
    · exact absurd ⟨hlo, hhi⟩ hrange

/-! ## What a session leaves unchanged (10_state.md rules R28 and R40, 20_memory.md rule R60) -/

/-- No completion writes LEN or TXW. -/
theorem Completed.len_txw (h : Completed s t) : t.len = s.len ∧ t.txw = s.txw := by
  rcases h with ⟨-, rfl⟩ | ⟨-, rfl⟩ | ⟨-, rfl⟩ | ⟨-, rfl⟩ | ⟨-, rfl⟩ | ⟨-, rfl⟩ | ⟨-, rfl⟩ |
    ⟨-, -, rfl⟩ | ⟨-, -, rfl⟩ | ⟨-, rfl⟩ | ⟨-, rfl⟩ | ⟨-, -, rfl⟩ | ⟨-, -, rfl⟩ | ⟨-, rfl⟩ |
    ⟨-, rfl⟩ | ⟨-, rfl⟩ <;> exact ⟨rfl, rfl⟩

/-- No block cycle writes LEN. -/
theorem CycleEffect.len (h : CycleEffect s t) : t.len = s.len := by
  cases h with
  | rest ht | count _ _ ht | leaveHs _ _ ht | leaveFin _ _ ht | fold _ ht | issue _ _ _ _ ht
  | issuePay _ _ _ ht | accept _ _ _ ht | fail _ _ _ _ ht => subst ht; rfl
  | complete _ _ _ _ hc => exact hc.len_txw.1

/-- A block cycle that writes TXW is an ISSUE step. -/
theorem CycleEffect.txw (h : CycleEffect s t) :
    t.txw = s.txw ∨ (s.phase = .issue ∧ t.phase = .req ∧ exchangeState s.state = true) := by
  cases h with
  | rest ht | count _ _ ht | leaveHs _ _ ht | leaveFin _ _ ht | fold _ ht | accept _ _ _ ht
  | fail _ _ _ _ ht => subst ht; exact .inl rfl
  | issue _ he _ hp ht => subst ht; exact .inr ⟨hp, rfl, he⟩
  | issuePay _ hs hp ht => subst ht; exact .inr ⟨hp, rfl, by rw [hs]; decide⟩
  | complete _ _ _ _ hc => exact .inl hc.len_txw.2

/-- A STATE code selects no host command. -/
theorem decodeState_ne_regRead {c : BitVec 5} {i : Instr} (h : decodeState c = .ok i)
    (off : BitVec 6) : i ≠ .regRead off := by
  rintro rfl
  cases decodeState_ok h

/-- Settles O46: during a session only an image write reaches the image, at LEN or above. -/
theorem sessionFreezesLenAndImage : Obligations.SessionFreezesLenAndImage := by
  intro s t h hb hrst
  cases step_effect h with
  | cycle p rest i _ _ s0 h0 hd he =>
    have hlen : t.len = s0.len := (cycle_effect hd he).len
    have himage : t.image = s0.image :=
      congrArg Outside.image (exec_outside (decodeState_ne_regRead hd) he)
    subst h0
    exact ⟨hlen, fun a _ => by rw [himage]⟩
  | start v rest _ _ s0 h0 he =>
    subst h0
    rcases start_effect he with ⟨-, rfl⟩ | ⟨-, -, -, rfl⟩ | ⟨-, -, rfl⟩ <;>
      exact ⟨rfl, fun _ _ => rfl⟩
  | lenWrite v rest _ s0 h0 he =>
    subst h0
    rcases lenWrite_effect he with ⟨-, rfl⟩ | ⟨hidle, -⟩
    · exact ⟨rfl, fun _ _ => rfl⟩
    · exact absurd (hidle.symm.trans hb) Bool.false_ne_true
  | image off b rest _ _ hoff ht =>
    subst ht
    have habove : s.len.toNat ≤ off := hoff.resolve_left (by rw [hb]; decide)
    exact ⟨rfl, fun a ha =>
      Memory.read_write_other _ _ _ _ (Nat.ne_of_lt (Nat.lt_of_lt_of_le ha habove))⟩
  | rst rest hs _ => exact absurd (by rw [hs]; rfl) hrst
  | read _ _ _ _ _ ht | ignored _ _ _ _ ht | drain _ _ ht | relink _ _ ht =>
    subst ht; exact ⟨rfl, fun _ _ => rfl⟩

/-- Settles O47: of all that a step can do, only a reset and an ISSUE step write TXW. -/
theorem frameStableWhileOffered : Obligations.FrameStableWhileOffered := by
  intro s t h hrst hne
  cases step_effect h with
  | cycle p rest i _ _ s0 h0 hd he =>
    have htxw := (cycle_effect hd he).txw
    subst h0
    exact htxw.resolve_left hne
  | start v rest _ _ s0 h0 he =>
    subst h0
    rcases start_effect he with ⟨-, rfl⟩ | ⟨-, -, -, rfl⟩ | ⟨-, -, rfl⟩ <;> exact absurd rfl hne
  | lenWrite v rest _ s0 h0 he =>
    subst h0
    rcases lenWrite_effect he with ⟨-, rfl⟩ | ⟨-, rfl⟩ <;> exact absurd rfl hne
  | rst rest hs _ => exact absurd (by rw [hs]; rfl) hrst
  | read _ _ _ _ _ ht | ignored _ _ _ _ ht | image _ _ _ _ _ _ ht | drain _ _ ht
  | relink _ _ ht => subst ht; exact absurd rfl hne

end Session

section Pins

variable {s t : State}

/-! ## The pins outside their phases (10_state.md rule R40) -/

/-- `s` with the transport's pins at `p`. -/
def State.withPins (p : Pins) (s : State) : State := { s with pins := p }

theorem State.waitStep_withPins (p : Pins) (ready again : BitVec 5) (s : State) :
    (s.withPins p).waitStep ready again = (s.waitStep ready again).withPins p := by
  by_cases h : s.delay = 0#32
  · rw [State.waitStep_leaves _ _ h, State.waitStep_leaves (s := s.withPins p) _ _ h]; rfl
  · rw [State.waitStep_counts _ _ h, State.waitStep_counts (s := s.withPins p) _ _ h]; rfl

theorem State.tokenDone_withPins (p : Pins) (r : Word) (s : State) :
    State.tokenDone r (s.withPins p) = (State.tokenDone r s).withPins p := by
  unfold State.tokenDone
  split <;> rfl

theorem State.payDone_withPins (p : Pins) (r : Word) (s : State) :
    State.payDone r (s.withPins p) = (State.payDone r s).withPins p := by
  have hecho : (s.withPins p).cursorLow = s.cursorLow := rfl
  simp only [State.payDone, hecho]
  split <;> rfl

theorem execStart_withPins (p : Pins) (s : State) :
    execStart (s.withPins p) = mapNext (State.withPins p) (execStart s) := by
  have hbusy : (s.withPins p).busy = s.busy := rfl
  have hlen : (s.withPins p).len = s.len := rfl
  simp only [execStart, hbusy, hlen]
  split
  · rfl
  · split <;> rfl

theorem execLenWrite_withPins (p : Pins) (v : Word) (s : State) :
    execLenWrite v (s.withPins p) = mapNext (State.withPins p) (execLenWrite v s) := by
  have hbusy : (s.withPins p).busy = s.busy := rfl
  simp only [execLenWrite, hbusy]
  split <;> rfl

theorem execRegRead_withPins (p : Pins) (off : BitVec 6) (s : State) :
    execRegRead off (s.withPins p) = mapNext (State.withPins p) (execRegRead off s) := by
  unfold execRegRead
  split <;> rfl

/-- An exchange does not read the pins outside their phases, if neither its frame nor its completion
reads them. -/
theorem exchange_withPins {pre : State → State} {frame : State → Word}
    {complete : Word → State → State} {p : Pins}
    (hready : p.txReady = s.pins.txReady ∨ s.phase ≠ .req)
    (hanswer : (p.rxValid = s.pins.rxValid ∧ p.rxWord = s.pins.rxWord ∧
      p.rxFail = s.pins.rxFail) ∨ s.phase ≠ .rsp)
    (hissue : (s.withPins p).issueFrame pre frame = (s.issueFrame pre frame).withPins p)
    (hcomplete : ∀ r u, complete r (State.withPins p u) = (complete r u).withPins p) :
    exchange pre frame complete (s.withPins p) =
      mapNext (State.withPins p) (exchange pre frame complete s) := by
  cases hp : s.phase with
  | issue => rw [exchange_issue hp, exchange_issue (s := s.withPins p) hp, hissue]; rfl
  | req =>
    have hpin : (s.withPins p).pins.txReady = s.pins.txReady := hready.resolve_right (· hp)
    cases hr : s.pins.txReady
    · rw [exchange_offered hp hr, exchange_offered (s := s.withPins p) hp (hpin.trans hr)]; rfl
    · rw [exchange_accepted hp hr, exchange_accepted (s := s.withPins p) hp (hpin.trans hr)]; rfl
  | rsp =>
    obtain ⟨hvalid, hword, hfail⟩ := hanswer.resolve_right (· hp)
    cases hv : s.pins.rxValid
    · rw [exchange_pending hp hv, exchange_pending (s := s.withPins p) hp (hvalid.trans hv)]; rfl
    cases hf : s.pins.rxFail
    · rw [exchange_completed hp hv hf,
        exchange_completed (s := s.withPins p) hp (hvalid.trans hv) (hfail.trans hf), mapNext,
        ← hcomplete, ← hword]
      rfl
    · rw [exchange_failed hp hv hf,
        exchange_failed (s := s.withPins p) hp (hvalid.trans hv) (hfail.trans hf)]
      rfl

/-- Settles O48: the exchanges read the pins in their phases only, the other operations never. -/
theorem pinsReadOnlyInTheirPhase : Obligations.PinsReadOnlyInTheirPhase := by
  intro i s p hready hanswer
  change exec i (s.withPins p) = mapNext (State.withPins p) (exec i s)
  cases i with
  | idle | done | error | fold => rfl
  | hsWait | finWait => exact congrArg Host.Outcome.next (State.waitStep_withPins p _ _ s)
  | start => exact execStart_withPins p s
  | lenWrite v => exact execLenWrite_withPins p v s
  | regRead off => exact execRegRead_withPins p off s
  | keyReq2 => exact exchange_withPins hready hanswer rfl (State.tokenDone_withPins p)
  | pay => exact exchange_withPins hready hanswer rfl (State.payDone_withPins p)
  | hsPoll | bootreq | hdr | hdrEnd | keySync | keyReq1 | keyAck | len | finStart | finPoll
  | finReq | finCrc => exact exchange_withPins hready hanswer rfl (fun _ _ => rfl)

end Pins

section Selection

variable {s t : State}

/-! ## Selecting an operation (10_state.md rule R21, 30_encoding.md rules R79 and R83) -/

/-- Settles O3: the decoder evaluated on each word. -/
theorem specWordsDecode : Obligations.SpecWordsDecode :=
  ⟨rfl, rfl, rfl, rfl, rfl, rfl, rfl, rfl⟩

/-- A block cycle that completes no request twice runs the operation STATE selects. -/
theorem blockCycle_runs {p : Pins} {i : Instr} (honce : p.rxValid = false ∨ s.request ≠ .answered)
    (hd : decodeState s.state = .ok i) :
    blockCycle p s = exec i { s with pins := p, request := s.nextRequest p } := by
  have htwice : s.completesTwice p ≠ true := fun h => by
    obtain ⟨hvalid, hanswered⟩ := (Bool.and_eq_true _ _).mp h
    rcases honce with hnone | hopen
    · exact Bool.false_ne_true (hnone.symm.trans hvalid)
    · exact hopen (beq_iff_eq.1 hanswered)
  rw [blockCycle, if_neg htwice, runWord, State.fetch, decode, hd]

/-- A quiet cycle leaves the account of the requests. -/
theorem State.nextRequest_quiet (s : State) : s.nextRequest Pins.quiet = s.request := by
  simp [State.nextRequest, Pins.quiet]

/-- Settles O5: a clock move, no move and a host move each come down to the decoded operation. -/
theorem stepRunsTheDecodedOperation : Obligations.StepRunsTheDecodedOperation := by
  refine ⟨fun s p rest i hm honce hd => ?_, fun s i hm hd => ?_, fun s a rest i hm hd hfree => ?_⟩
  · rw [step_of_moves hm]
    exact blockCycle_runs (s := { s with script := rest }) honce hd
  · rw [step_of_no_moves hm, blockCycle_runs (.inl rfl) hd, State.nextRequest_quiet]
    rfl
  · refine step_host_runs hm hd fun hduty => ?_
    obtain ⟨hcut, hidle, hrange, hstart⟩ := breaksDrainDuty_iff.1 hduty
    have hi : i = .start := Except.ok.inj (hd.symm.trans hstart)
    rcases hfree with hother | hdrained | hbusy | hlen
    · exact hother hi
    · exact Bool.false_ne_true (hdrained.symm.trans hcut)
    · exact Bool.false_ne_true (hidle.symm.trans hbusy)
    · exact hlen hrange

end Selection

section Reset

/-! ## The reset state (10_state.md rule R46, 70_reset_and_hazards.md rule R221) -/

/-- Settles O12: the reset state holds 0 element by element, and so does every window register. -/
theorem resetStateIsZero : Obligations.ResetStateIsZero := by
  refine ⟨fun r => ?_, fun off => ?_, rfl, rfl, rfl, rfl, rfl⟩
  · cases r <;> rfl
  · unfold State.regAt
    split <;> rfl

/-- Settles O50: at reset the block is quiescent and every register holds 0, and 0 is no more than any
DELAY_TICKS. -/
theorem resetMeetsTheInvariant : Obligations.ResetMeetsTheInvariant where
  codes := ⟨by decide, fun _ => rfl⟩
  cursor := ⟨by decide, by decide, by decide, by decide, by decide, by decide, by decide,
    by decide, by decide⟩
  fresh := ⟨by decide, by decide, by decide, by decide, by decide, fun _ _ => rfl, Nat.zero_le _⟩
  errors := ⟨fun _ => ⟨rfl, rfl, rfl, rfl⟩, by decide⟩
  pending := by decide
  image := State.reset_image_wf

end Reset

end Sys2Proof.Machine

/-! SUPPORT. Proofs of the memory statements (20_memory.md): how the block reads the image (R53, R54),
where it reads it (R52, R57, R63), the host's writes to it (R60) and the alternation of frames and
completions (R62). -/

namespace Sys2Proof.Machine

open Sys2Proof.Safety

section ImageReads

variable {s t : State}

/-! ## Reads of the image (20_memory.md rules R53 and R54) -/

/-- The image port drives every offset inside the space as it is (R41, R51). -/
theorem imgAddr_toNat {off : Word} (h : off.toNat < 0x40000) : (imgAddr off).toNat = off.toNat := by
  rw [imgAddr, BitVec.toNat_setWidth, Nat.mod_eq_of_lt h]

theorem State.img_of_len_le {off : Word} (h : s.len ≤ off) : s.img off = 0x00#8 :=
  if_neg (BitVec.not_lt.2 h)

theorem State.img_of_lt_len {off : Word} (h : off < s.len) (hin : off.toNat < 0x40000) :
    s.img off = Memory.read s.image off.toNat := by
  rw [State.img, if_pos h, imgAddr_toNat hin]

theorem State.hdrFrame_toNat (s : State) (off : Word) :
    (s.hdrFrame off).toNat = (s.img (off + 1#32)).toNat * 256 + (s.img off).toNat := by
  rw [State.hdrFrame, BitVec.toNat_setWidth_of_le (by decide)]
  exact toNat_bytes2 _ _

/-- Settles O16: the mask of R53 and the order of R54. -/
theorem imageReadsMaskedLittleEndian : Obligations.ImageReadsMaskedLittleEndian := by
  intro s off
  refine ⟨State.img_of_len_le, State.img_of_lt_len, ?_, ?_⟩
  · rw [State.hdrFrame_toNat]
    simp only [littleEndian]
    omega
  · rw [State.payWord, State.memRead4, toNat_bytes4]
    simp only [littleEndian]
    omega

end ImageReads

section HostImageWrites

variable {s t : State} {off : Nat} {b : Byte}

/-! ## The host's writes to the image space (20_memory.md rule R60) -/

theorem hostImageWrite_outside (h : imageSize ≤ off) :
    hostImageWrite off b s = .fault (.outsideImage off) := if_pos h

theorem hostImageWrite_refused (h : off < imageSize) (hb : s.busy = true) (hlen : off < s.len.toNat) :
    hostImageWrite off b s = .refused (.imageWriteWhileBusy off) := by
  rw [hostImageWrite, if_neg (Nat.not_le.2 h), hb, decide_eq_true hlen]
  rfl

theorem hostImageWrite_performed (h : off < imageSize) (hfree : s.busy = false ∨ s.len.toNat ≤ off) :
    hostImageWrite off b s = .next { s with image := Memory.write s.image off b } := by
  have hallowed : ¬ (s.busy && decide (off < s.len.toNat)) = true := by
    rcases hfree with hidle | habove
    · simp [hidle]
    · simp [Nat.not_lt.2 habove]
  rw [hostImageWrite, if_neg (Nat.not_le.2 h), if_neg hallowed]

/-- Settles O39: the three answers to an image write, and a read after a write. -/
theorem hostImageWriteChangesOneByte : Obligations.HostImageWriteChangesOneByte := by
  intro s off b rest hwf hm
  rw [step_of_moves hm]
  refine ⟨hostImageWrite_outside, fun h hb hlen => ?_, fun h hfree => ?_⟩
  · exact hostImageWrite_refused (s := { s with script := rest }) h hb hlen
  · exact ⟨Memory.write s.image off b,
      hostImageWrite_performed (s := { s with script := rest }) h hfree,
      Memory.read_write_same _ _ _ hwf, fun a ha => Memory.read_write_other _ _ _ _ ha⟩

end HostImageWrites

section ImageUse

variable {s t : State} {m : Memory}

/-! ## Where the block reads the image (20_memory.md rules R52, R57 and R63) -/

/-- `s` with the image space `m`. -/
def State.withImage (m : Memory) (s : State) : State := { s with image := m }

/-- Two images that agree at an address inside the space show the block the same byte there. -/
theorem State.img_withImage {off : Word} {a : Nat} (hoff : off.toNat = a) (ha : a < 0x40000)
    (hread : Memory.read m a = Memory.read s.image a) : (s.withImage m).img off = s.img off := by
  subst hoff
  by_cases hlen : off < s.len
  · rw [State.img_of_lt_len hlen ha, State.img_of_lt_len (s := s.withImage m) hlen ha]
    exact hread
  · have hle : s.len ≤ off := BitVec.not_lt.1 hlen
    rw [State.img_of_len_le hle, State.img_of_len_le (s := s.withImage m) hle]

/-- The header frame reads the two bytes at its offset. -/
theorem State.hdrFrame_withImage {off : Word} (hin : off.toNat + 1 < 0x40000)
    (hread : ∀ k < 2, Memory.read m (off.toNat + k) = Memory.read s.image (off.toNat + k)) :
    (s.withImage m).hdrFrame off = s.hdrFrame off := by
  have h0 := State.img_withImage (off := off) rfl (by omega) (hread 0 (by decide))
  have h1 := State.img_withImage (off := off + 1#32) (by bv_omega) hin (hread 1 (by decide))
  rw [State.hdrFrame, State.pack16LE, State.memRead2, h0, h1]
  rfl

/-- The payload word reads the four bytes at its offset. -/
theorem State.payWord_withImage {off : Word} (hin : off.toNat + 3 < 0x40000)
    (hread : ∀ k < 4, Memory.read m (off.toNat + k) = Memory.read s.image (off.toNat + k)) :
    (s.withImage m).payWord off = s.payWord off := by
  have h0 := State.img_withImage (off := off) rfl (by omega) (hread 0 (by decide))
  have h1 := State.img_withImage (off := off + 1#32) (by bv_omega) (by omega) (hread 1 (by decide))
  have h2 := State.img_withImage (off := off + 2#32) (by bv_omega) (by omega) (hread 2 (by decide))
  have h3 := State.img_withImage (off := off + 3#32) (by bv_omega) hin (hread 3 (by decide))
  rw [State.payWord, State.memRead4, h0, h1, h2, h3]
  rfl

/-- PAY's ISSUE action, with the raw word in the three places it is used (R150). -/
theorem State.issueFrame_pay (s : State) :
    s.issueFrame State.payPre State.payFrame =
      { s with
        crc := crcWord s.crc (s.payWord s.cursor), seed := lcgStep s.seed
        txw := encrypt (lcgStep s.seed) (s.payWord s.cursor) s.cursor, phase := .req } := rfl

/-- An exchange does not depend on the image if neither its ISSUE action nor its completion does. -/
theorem exchange_withImage {pre : State → State} {frame : State → Word}
    {complete : Word → State → State}
    (hissue : s.phase = .issue →
      (s.withImage m).issueFrame pre frame = (s.issueFrame pre frame).withImage m)
    (hcomplete : ∀ r u, complete r (State.withImage m u) = (complete r u).withImage m) :
    exchange pre frame complete (s.withImage m) =
      mapNext (State.withImage m) (exchange pre frame complete s) := by
  cases hp : s.phase with
  | issue => rw [exchange_issue hp, exchange_issue (s := s.withImage m) hp, hissue hp]; rfl
  | req =>
    cases hr : s.pins.txReady
    · rw [exchange_offered hp hr, exchange_offered (s := s.withImage m) hp hr]; rfl
    · rw [exchange_accepted hp hr, exchange_accepted (s := s.withImage m) hp hr]; rfl
  | rsp =>
    cases hv : s.pins.rxValid
    · rw [exchange_pending hp hv, exchange_pending (s := s.withImage m) hp hv]; rfl
    cases hf : s.pins.rxFail
    · rw [exchange_completed hp hv hf, exchange_completed (s := s.withImage m) hp hv hf, mapNext,
        ← hcomplete]
      rfl
    · rw [exchange_failed hp hv hf, exchange_failed (s := s.withImage m) hp hv hf]; rfl

theorem State.waitStep_withImage (m : Memory) (ready again : BitVec 5) (s : State) :
    (s.withImage m).waitStep ready again = (s.waitStep ready again).withImage m := by
  by_cases h : s.delay = 0#32
  · rw [State.waitStep_leaves _ _ h, State.waitStep_leaves (s := s.withImage m) _ _ h]; rfl
  · rw [State.waitStep_counts _ _ h, State.waitStep_counts (s := s.withImage m) _ _ h]; rfl

theorem State.tokenDone_withImage (m : Memory) (r : Word) (s : State) :
    State.tokenDone r (s.withImage m) = (State.tokenDone r s).withImage m := by
  unfold State.tokenDone
  split <;> rfl

theorem State.payDone_withImage (m : Memory) (r : Word) (s : State) :
    State.payDone r (s.withImage m) = (State.payDone r s).withImage m := by
  have hecho : (s.withImage m).cursorLow = s.cursorLow := rfl
  simp only [State.payDone, hecho]
  split <;> rfl

theorem execStart_withImage (m : Memory) (s : State) :
    execStart (s.withImage m) = mapNext (State.withImage m) (execStart s) := by
  have hbusy : (s.withImage m).busy = s.busy := rfl
  have hlen : (s.withImage m).len = s.len := rfl
  simp only [execStart, hbusy, hlen]
  split
  · rfl
  · split <;> rfl

theorem execLenWrite_withImage (m : Memory) (v : Word) (s : State) :
    execLenWrite v (s.withImage m) = mapNext (State.withImage m) (execLenWrite v s) := by
  have hbusy : (s.withImage m).busy = s.busy := rfl
  simp only [execLenWrite, hbusy]
  split <;> rfl

theorem execRegRead_withImage (m : Memory) (off : BitVec 6) (s : State) :
    execRegRead off (s.withImage m) = mapNext (State.withImage m) (execRegRead off s) := by
  unfold execRegRead
  split <;> rfl

/-- An operation depends on the image by HDR's frame and PAY's word in ISSUE, and by nothing else
(R63). -/
theorem exec_withImage (i : Instr)
    (hhdr : i = .hdr → s.phase = .issue →
      (s.withImage m).hdrFrame s.cursor = s.hdrFrame s.cursor)
    (hpay : i = .pay → s.phase = .issue →
      (s.withImage m).payWord s.cursor = s.payWord s.cursor) :
    exec i (s.withImage m) = mapNext (State.withImage m) (exec i s) := by
  cases i with
  | idle | done | error | fold => rfl
  | hsWait | finWait => exact congrArg Host.Outcome.next (State.waitStep_withImage m _ _ s)
  | start => exact execStart_withImage m s
  | lenWrite v => exact execLenWrite_withImage m v s
  | regRead off => exact execRegRead_withImage m off s
  | hdr =>
    refine exchange_withImage (fun hp => ?_) (fun _ _ => rfl)
    have hframe : (s.withImage m).hdrFrame (s.withImage m).cursor = s.hdrFrame s.cursor :=
      hhdr rfl hp
    simp only [State.issueFrame, id, hframe]
    rfl
  | pay =>
    refine exchange_withImage (fun hp => ?_) (State.payDone_withImage m)
    have hword : (s.withImage m).payWord (s.withImage m).cursor = s.payWord s.cursor :=
      hpay rfl hp
    rw [State.issueFrame_pay, State.issueFrame_pay, hword]
    rfl
  | keyReq2 => exact exchange_withImage (fun _ => rfl) (State.tokenDone_withImage m)
  | hsPoll | bootreq | hdrEnd | keySync | keyReq1 | keyAck | len | finStart | finPoll
  | finReq | finCrc => exact exchange_withImage (fun _ => rfl) (fun _ _ => rfl)

/-- Clearing the low four bits rounds down to a multiple of 16. -/
theorem toNat_and_not_fifteen (w : Word) : (w &&& ~~~15#32).toNat = w.toNat / 16 * 16 := by
  have hshift : w &&& ~~~15#32 = w >>> 4 <<< 4 := 
    (BitVec.shiftLeft_ushiftRight (x := w) (n := 4)).symm
  rw [hshift, BitVec.toNat_shiftLeft, BitVec.toNat_ushiftRight, Nat.shiftLeft_eq,
    Nat.shiftRight_eq_div_pow]
  omega

/-- In PAY the padded length is a multiple of 16 inside the space (R29, R57). -/
theorem padlen_of_pay (h : CursorPlaced s) (hs : s.state = 11#5) :
    s.padlen.toNat % 16 = 0 ∧ s.padlen.toNat ≤ 0x40000 := by
  obtain ⟨-, hlen⟩ := h.lenOK (busy_eq_true_iff.2 (by rw [hs]; decide))
  have hpad := h.padSet (by rw [hs]; decide) (by rw [hs]; decide)
  rw [hpad, toNat_and_not_fifteen]
  bv_omega

/-- Settles O52: the invariant places CURSOR, and the bytes there are all that HDR and PAY read. -/
theorem imageReadsInsideTheSpace : Obligations.ImageReadsInsideTheSpace := by
  intro s m hinv
  refine ⟨fun hs _ => ?_, fun hs _ => ?_, fun i hi => ?_⟩
  · obtain ⟨heven, hlt⟩ := hinv.cursor.header hs
    refine ⟨heven, by omega, fun hread => ?_⟩
    exact exec_withImage .hdr (fun _ _ => State.hdrFrame_withImage (by omega) hread) nofun
  · obtain ⟨hfour, hlow, hlt⟩ := hinv.cursor.payload hs
    obtain ⟨hpad, hspace⟩ := padlen_of_pay hinv.cursor hs
    refine ⟨hfour, hlow, by omega, hspace, fun hread => ?_⟩
    exact exec_withImage .pay nofun (fun _ _ => State.payWord_withImage (by omega) hread)
  · exact exec_withImage i (fun h hp => absurd hp (hi (.inl h)))
      (fun h hp => absurd hp (hi (.inr h)))

end ImageUse

section Alternation

variable {s t : State}

/-! ## Frames and completions alternate (20_memory.md rule R62, 70_reset_and_hazards.md rule R226) -/

/-- Whether a TX still awaits its completion after the events, if `pending` says so before them. -/
def pendingAfter (pending : Bool) : List Event → Bool
  | [] => pending
  | .tx _ :: es => pendingAfter true es
  | .rx _ :: es => pendingAfter false es
  | .rxFail :: es => pendingAfter false es
  | .wait :: es => pendingAfter pending es
  | .fold :: es => pendingAfter pending es
  | .write _ _ :: es => pendingAfter pending es
  | .read _ _ :: es => pendingAfter pending es

/-- Alternating traces compose. -/
theorem alternate_append {pending : Bool} {es fs : List Event} (h : alternate pending es)
    (h' : alternate (pendingAfter pending es) fs) : alternate pending (es ++ fs) := by
  induction es generalizing pending with
  | nil => exact h'
  | cons e es ih =>
    cases e with
    | tx | rx | rxFail => exact ⟨h.1, ih h.2 h'⟩
    | wait | fold | write | read => exact ih h h'

/-- The decoder and R22 agree on the exchange states. -/
theorem isExchange_of_decodeState {c : BitVec 5} {i : Instr} (h : decodeState c = .ok i) :
    isExchange i = exchangeState c := by
  have htable : ∀ c : BitVec 5, (match decodeState c with
      | .ok i => isExchange i == exchangeState c
      | .error _ => true) = true := by decide
  have hrow := htable c
  rw [h] at hrow
  exact beq_iff_eq.1 hrow

/-- Every exchange state belongs to a session. -/
theorem busy_of_exchangeState (h : exchangeState s.state = true) : s.busy = true := by
  refine busy_eq_true_iff.2 ⟨?_, ?_, ?_⟩ <;> (intro hs; rw [hs] at h; cases h)

/-- The events of a block cycle in an exchange state: the acceptance or the completion. -/
theorem State.cycleEvents_exchange {p : Pins} (honce : s.completesTwice p = false) {i : Instr}
    (hd : decodeState s.state = .ok i) (he : exchangeState s.state = true) :
    s.cycleEvents p =
      if s.phase = .req ∧ p.txReady then [.tx s.txw]
      else if s.phase = .rsp ∧ p.rxValid then [if p.rxFail then .rxFail else .rx p.rxWord]
      else [] := by
  have hi : isExchange i = true := (isExchange_of_decodeState hd).trans he
  simp [State.cycleEvents, honce, hd, hi]

/-- The events of a block cycle in any other state concern no exchange. -/
theorem State.pendingAfter_cycleEvents_internal {p : Pins} {i : Instr}
    (hd : decodeState s.state = .ok i) (he : exchangeState s.state = false) (pending : Bool) :
    pendingAfter pending (s.cycleEvents p) = pending := by
  have hi : isExchange i = false := (isExchange_of_decodeState hd).trans he
  simp only [State.cycleEvents, hd, hi]
  split; · rfl
  split; · contradiction
  split; · rfl
  split <;> rfl

/-- A host access concerns no exchange. -/
theorem State.pendingAfter_accessEvents (a : Access) (pending : Bool) :
    pendingAfter pending (s.accessEvents a) = pending := by
  unfold State.accessEvents
  split; · rfl
  split <;> rfl

/-- A block cycle shows a TX only in PHASE REQ and a completion only in PHASE RSP. -/
theorem State.cycleEvents_alternate (p : Pins) (s : State) :
    alternate (s.phase == .rsp) (s.cycleEvents p) := by
  unfold State.cycleEvents
  split; · trivial
  split; · trivial
  split
  · split
    · rename_i hreq
      exact ⟨by rw [hreq.1]; rfl, trivial⟩
    · split
      · rename_i hrsp
        split <;> exact ⟨by rw [hrsp.1]; rfl, trivial⟩
      · trivial
  · split; · trivial
    split <;> trivial

theorem State.accessEvents_alternate (a : Access) (s : State) (pending : Bool) :
    alternate pending (s.accessEvents a) := by
  unfold State.accessEvents
  split; · trivial
  split <;> trivial

/-- The events of one transition, taken or not, fit the phase it starts in. -/
theorem State.events_alternate (s : State) : alternate (s.phase == .rsp) s.events := by
  unfold State.events
  split
  · exact s.cycleEvents_alternate _
  · exact s.cycleEvents_alternate _
  · exact s.accessEvents_alternate _ _
  · trivial

/-- A completed exchange is back in ISSUE. -/
theorem Completed.phase (h : Completed s t) : t.phase = .issue := by
  rcases h with ⟨-, rfl⟩ | ⟨-, rfl⟩ | ⟨-, rfl⟩ | ⟨-, rfl⟩ | ⟨-, rfl⟩ | ⟨-, rfl⟩ | ⟨-, rfl⟩ |
    ⟨-, -, rfl⟩ | ⟨-, -, rfl⟩ | ⟨-, rfl⟩ | ⟨-, rfl⟩ | ⟨-, -, rfl⟩ | ⟨-, -, rfl⟩ | ⟨-, rfl⟩ |
    ⟨-, rfl⟩ | ⟨-, rfl⟩ <;> rfl

/-- PHASE RSP stands in an exchange state only (R22). -/
def RspInExchange (s : State) : Prop := s.phase = .rsp → exchangeState s.state = true

theorem CycleEffect.rspInExchange (h : CycleEffect s t) (hs : RspInExchange s) :
    RspInExchange t := by
  have hno {c : BitVec 5} (hc : s.state = c) (hquiet : exchangeState c = false) :
      s.phase ≠ .rsp := fun hp => by
    have he := hs hp
    rw [hc, hquiet] at he
    cases he
  cases h with
  | rest ht | count _ _ ht => subst ht; exact hs
  | leaveHs hc _ ht | leaveFin hc _ ht | fold hc ht =>
    subst ht; exact fun hp => absurd hp (hno hc (by decide))
  | issue _ _ _ _ ht | issuePay _ _ _ ht | fail _ _ _ _ ht => subst ht; nofun
  | accept he _ _ ht => subst ht; exact fun _ => he
  | complete _ _ _ _ hc => exact fun hp => absurd (hc.phase.symm.trans hp) (by decide)

/-- Outside the exchange states a block cycle leaves PHASE. -/
theorem CycleEffect.phase_of_internal (h : CycleEffect s t) (he : exchangeState s.state = false) :
    t.phase = s.phase := by
  cases h with
  | rest ht | count _ _ ht | leaveHs _ _ ht | leaveFin _ _ ht | fold _ ht => subst ht; rfl
  | issuePay _ hs => rw [hs] at he; cases he
  | issue _ hx | accept hx | fail hx | complete hx =>
    exact absurd (hx.symm.trans he) (by decide)

/-- The events of a block cycle say how it moves PHASE: a TX enters RSP, a completion leaves it. -/
theorem cycle_pendingAfter {p : Pins} {rest : List Input} {i : Instr} {s0 : State}
    (honce : s.completesTwice p = false)
    (h0 : s0 = { s with script := rest, pins := p, request := s.nextRequest p })
    (hd : decodeState s0.state = .ok i) (he : exec i s0 = .next t) :
    pendingAfter (s.phase == .rsp) (s.cycleEvents p) = (t.phase == .rsp) := by
  have hstate : s0.state = s.state := by rw [h0]
  have hphase : s0.phase = s.phase := by rw [h0]
  have hpins : s0.pins = p := by rw [h0]
  have heffect := cycle_effect hd he
  rw [hstate] at hd
  cases hx : exchangeState s.state with
  | false =>
    rw [State.pendingAfter_cycleEvents_internal hd hx,
      heffect.phase_of_internal (by rw [hstate, hx]), hphase]
  | true =>
    have hno {c : BitVec 5} (hc : s0.state = c) : exchangeState c = true := by rw [← hc, hstate, hx]
    rw [State.cycleEvents_exchange honce hd hx, ← hphase, ← hpins]
    cases heffect with
    | rest ht hq =>
      subst ht
      rcases hq with hb | ⟨hp, hr⟩ | ⟨hp, hv⟩
      · exact absurd ((busy_of_exchangeState (hno rfl)).symm.trans hb) (by decide)
      · simp [hp, hr, pendingAfter]
      · simp [hp, hv, pendingAfter]
    | count hc => rcases hc with hc | hc <;> cases hno hc
    | leaveHs hc | leaveFin hc | fold hc => cases hno hc
    | issue _ _ _ hp ht | issuePay _ _ hp ht => simp [hp, ht, pendingAfter]
    | accept _ hp hr ht => simp [hp, hr, ht, pendingAfter]
    | fail _ hp hv hf ht => simp [hp, hv, hf, ht, pendingAfter]
    | complete _ hp hv hf hc => simp [hp, hv, hf, hc.phase, pendingAfter]

/-- START neither enters nor leaves PHASE RSP: it acts outside a session only. -/
theorem start_keeps_rsp (h : exec .start s = .next t) (hs : RspInExchange s) :
    (t.phase == .rsp) = (s.phase == .rsp) ∧ RspInExchange t := by
  have hidle (hb : s.busy = false) : (s.phase == .rsp) = false := by
    refine beq_false_of_ne fun hp => ?_
    exact absurd ((busy_of_exchangeState (hs hp)).symm.trans hb) (by decide)
  rcases start_effect h with ⟨-, rfl⟩ | ⟨hb, -, -, rfl⟩ | ⟨hb, -, rfl⟩
  · exact ⟨rfl, hs⟩
  · exact ⟨(hidle hb).symm, nofun⟩
  · exact ⟨(hidle hb).symm, nofun⟩

/-- The events of a step other than a reset say how it moves PHASE RSP, and RSP stays in the exchange
states. -/
theorem step_pendingAfter (h : step s = .next t) (hs : RspInExchange s)
    (hrst : noReset s.moves) :
    pendingAfter (s.phase == .rsp) s.events = (t.phase == .rsp) ∧ RspInExchange t := by
  have haccess {a : Access} {rest : List Input} (hm : s.moves = .host a :: rest) :
      pendingAfter (s.phase == .rsp) s.events = (s.phase == .rsp) := by
    simp only [State.events, hm, State.pendingAfter_accessEvents]
  cases step_effect h with
  | cycle p rest i hm honce s0 h0 hd he =>
    have hevents : s.events = s.cycleEvents p := by
      rcases hm with ⟨hm, -, rfl⟩ | hm <;> simp only [State.events, hm]
    have hs0 : RspInExchange s0 := by rw [h0]; exact hs
    rw [hevents]
    exact ⟨cycle_pendingAfter honce h0 hd he, (cycle_effect hd he).rspInExchange hs0⟩
  | start v rest hm _ s0 h0 he =>
    have hs0 : RspInExchange s0 := by rw [h0]; exact hs
    obtain ⟨hphase, ht⟩ := start_keeps_rsp he hs0
    rw [haccess hm, hphase, h0]
    exact ⟨rfl, ht⟩
  | lenWrite v rest hm s0 h0 he =>
    rw [haccess hm]
    subst h0
    rcases lenWrite_effect he with ⟨-, rfl⟩ | ⟨-, rfl⟩ <;> exact ⟨rfl, hs⟩
  | read a rest _ hm _ ht | ignored a rest hm _ ht => subst ht; exact ⟨haccess hm, hs⟩
  | rst rest hm => exact absurd (hm ▸ List.mem_cons_self) hrst
  | image _ _ _ hm _ _ ht | drain _ hm ht | relink _ hm ht =>
    subst ht
    exact ⟨by simp only [State.events, hm, pendingAfter], hs⟩

/-! ### The agents' moves along a run -/

theorem State.script_of_no_moves (h : s.moves = []) : s.script = [] := by
  unfold State.moves at h
  split at h
  · assumption
  · cases h

theorem noReset_moves (hscript : noReset s.script) (hloop : noReset s.loop) : noReset s.moves := by
  unfold State.moves
  split
  · exact hloop
  · rename_i hm
    exact hm ▸ hscript

/-- A step uses up the first of the agents' moves and leaves the loop. -/
theorem step_agents (h : step s = .next t) : t.script = s.moves.tail ∧ t.loop = s.loop := by
  cases step_effect h with
  | cycle p rest i hm _ s0 h0 hd he =>
    have hout := exec_outside (decodeState_ne_regRead hd) he
    have hrest : rest = s.moves.tail := by
      rcases hm with ⟨hm, rfl, -⟩ | hm
      · rw [hm, State.script_of_no_moves hm]; rfl
      · rw [hm]; rfl
    subst h0
    exact ⟨(congrArg Outside.script hout).trans hrest, congrArg Outside.loop hout⟩
  | start v rest hm _ s0 h0 he =>
    have hout := exec_outside (i := .start) nofun he
    subst h0
    rw [hm]
    exact ⟨congrArg Outside.script hout, congrArg Outside.loop hout⟩
  | lenWrite v rest hm s0 h0 he =>
    have hout := exec_outside (i := .lenWrite v) nofun he
    subst h0
    rw [hm]
    exact ⟨congrArg Outside.script hout, congrArg Outside.loop hout⟩
  | read _ _ _ hm _ ht | ignored _ _ hm _ ht | image _ _ _ hm _ _ ht | rst _ hm ht | drain _ hm ht
  | relink _ hm ht =>
    subst ht
    rw [hm]
    exact ⟨rfl, rfl⟩

/-- A trace ends where the machine stops. -/
theorem trace_of_stop {n : Nat} (h : ∀ t, step s ≠ .next t) : trace (n + 1) s = s.events := by
  rw [trace]
  split
  · rename_i t ht
    exact absurd ht (h t)
  · exact List.append_nil _

/-- Settles O57, by induction on the run: PHASE RSP is the pending completion of the trace. -/
theorem framesAndResponsesAlternate : Obligations.FramesAndResponsesAlternate := by
  intro s n
  induction n generalizing s with
  | zero => exact fun _ _ _ => trivial
  | succ n ih =>
    intro hs hscript hloop
    have hmoves := noReset_moves hscript hloop
    by_cases hstep : ∃ t, step s = .next t
    · obtain ⟨t, ht⟩ := hstep
      obtain ⟨hpending, hst⟩ := step_pendingAfter ht hs hmoves
      obtain ⟨htail, hsame⟩ := step_agents ht
      have hscript' : noReset t.script := htail ▸ fun hmem => hmoves (List.mem_of_mem_tail hmem)
      rw [trace_succ ht]
      exact alternate_append s.events_alternate (hpending ▸ ih t hst hscript' (hsame ▸ hloop))
    · rw [trace_of_stop (not_exists.1 hstep)]
      exact s.events_alternate

end Alternation

end Sys2Proof.Machine

/-! SUPPORT. Proofs of the encoding statements (30_encoding.md): the round trips of the decoder (R79, R83),
the reserved codes (R81) and the response bits that no rule reads (R78, R82). -/

namespace Sys2Proof.Machine

open Sys2Proof.Safety

section Encoding

variable {s t : State}

/-! ## Decode and encode (30_encoding.md rules R79 and R83) -/

/-- A LEN write is LEN_WRITE of its data (R83). -/
theorem decodeAccess_lenWrite (v : Word) :
    decodeAccess { write := true, size := 4, offset := 8#32, data := v } = .ok (.lenWrite v) := by
  unfold decodeAccess
  rw [if_neg (by simp), if_neg (by simp), if_neg (by simp), if_neg (by simp),
    if_neg (by simp [Offset.ctrl]), if_pos rfl]

/-- A window offset keeps its six bits on the way through the access and back. -/
theorem setWidth_six_of_setWidth (off : BitVec 6) : (off.setWidth 32).setWidth 6 = off := by
  rw [BitVec.setWidth_setWidth_of_le _ (by decide), BitVec.setWidth_eq]

/-- Settles O1: a host command by the access that carries it, a STATE code by the table. -/
theorem decodeReadsBackEncode : Obligations.DecodeReadsBackEncode := by
  intro i hwf
  cases i with
  | start => exact decodeAccess_start 1#32 rfl
  | lenWrite v => exact decodeAccess_lenWrite v
  | regRead off =>
    have hwide : (off.setWidth 32).toNat = off.toNat := BitVec.toNat_setWidth_of_le (by decide)
    have hread := decodeAccess_read (off.setWidth 32) 0#32 (by omega)
      (by rw [hwide]; exact (regRead_wf_iff off).1 hwf)
    rwa [setWidth_six_of_setWidth] at hread
  | idle | hsPoll | hsWait | bootreq | hdr | hdrEnd | keySync | keyReq1 | keyReq2 | keyAck | len
  | pay | fold | finStart | finPoll | finWait | finReq | finCrc | done | error => rfl

/-- Only a register read has an operand that can be malformed (R38). -/
theorem wf_of_ne_regRead {i : Instr} (h : ∀ off, i ≠ .regRead off) : i.wf = true := by
  cases i with
  | regRead off => exact absurd rfl (h off)
  | _ => rfl

/-- Bit 0 alone of data whose bit 0 is set. -/
theorem and_one_of_getLsbD_zero {v : Word} (h : v.getLsbD 0 = true) : v &&& 1#32 = 1#32 := by
  rw [BitVec.and_one_eq_setWidth_ofBool_getLsbD, h]
  rfl

/-- Settles O2: a STATE code by the table, a host access by the three forms it decodes from. -/
theorem decodedWordsAreEncodings : Obligations.DecodedWordsAreEncodings := by
  intro w i h
  cases w with
  | state c => exact ⟨wf_of_ne_regRead (decodeState_ne_regRead h), decodeState_ok h⟩
  | access a =>
    obtain ⟨hoff, hsize, halign, hform⟩ := decodeAccess_ok h
    rcases hform with ⟨hw, rfl⟩ | ⟨hw, hctrl, hbit, rfl⟩ | ⟨hw, hlen, rfl⟩
    · have hback : (a.offset.setWidth 6).toNat = a.offset.toNat := by
        rw [BitVec.toNat_setWidth, Nat.mod_eq_of_lt hoff]
      refine ⟨(regRead_wf_iff _).2 ?_, _, rfl, hw.symm, hsize.symm, ?_, ?_, ?_⟩
      · rw [hback]; exact (extract_two_eq_zero_iff _).1 halign
      · refine BitVec.eq_of_toNat_eq ?_
        rw [← hback]; exact BitVec.toNat_setWidth_of_le (by decide)
      · exact fun hw' => absurd (hw.symm.trans hw') (by decide)
      · exact fun hw' => absurd (hw.symm.trans hw') (by decide)
    · exact ⟨rfl, _, rfl, hw.symm, hsize.symm, hctrl.symm, nofun,
        fun _ _ => (and_one_of_getLsbD_zero hbit).symm⟩
    · exact ⟨rfl, _, rfl, hw.symm, hsize.symm, hlen.symm, fun _ _ => rfl, nofun⟩

/-! ## The reserved codes (30_encoding.md rule R81) -/

/-- STATE codes below 20 select an operation, the others none. -/
theorem decodeState_reserved_table : ∀ c : BitVec 5,
    (match decodeState c with
      | .ok _ => decide (c.toNat < 20)
      | .error _ => decide (20 ≤ c.toNat)) = true := by decide

theorem decodeState_reserved {c : BitVec 5} (h : 20 ≤ c.toNat) :
    decodeState c = .error (.reservedState c) := by
  have hrow := decodeState_reserved_table c
  cases hd : decodeState c with
  | ok i => rw [hd] at hrow; exact absurd h (Nat.not_le.2 (of_decide_eq_true hrow))
  | error r => rw [decodeState_error hd]

theorem decodeState_held {c : BitVec 5} (h : c.toNat < 20) : ∃ i, decodeState c = .ok i := by
  have hrow := decodeState_reserved_table c
  cases hd : decodeState c with
  | ok i => exact ⟨i, rfl⟩
  | error r => rw [hd] at hrow; exact absurd h (Nat.not_lt.2 (of_decide_eq_true hrow))

/-- The transport completes no request twice when it is quiet or no request is answered. -/
theorem State.completesTwice_ne {p : Pins} (h : p.rxValid = false ∨ s.request ≠ .answered) :
    s.completesTwice p ≠ true := fun htwice => by
  obtain ⟨hvalid, hanswered⟩ := (Bool.and_eq_true _ _).mp htwice
  rcases h with hnone | hopen
  · exact Bool.false_ne_true (hnone.symm.trans hvalid)
  · exact hopen (beq_iff_eq.1 hanswered)

/-- A block cycle in a reserved code is refused by that name, unless the transport's second completion
is refused first (R81, R226). -/
theorem blockCycle_reserved {p : Pins} (h : 20 ≤ s.state.toNat) :
    blockCycle p s = if s.completesTwice p then .refused .secondCompletion
      else .refused (.reservedState s.state) := by
  rw [blockCycle, runWord, State.fetch, decode, decodeState_reserved h]
  rfl

/-- Settles O4: the decoder's table, and the three codes of PHASE that STATUS shows. -/
theorem reservedCodesRefused : Obligations.ReservedCodesRefused := by
  have hbits : ∀ p : Phase, p.bits ≠ 3#2 := fun p => by cases p <;> decide
  refine ⟨fun s h => ⟨fun hm => ?_, fun p rest hm honce => ?_, fun p rest hm => ?_⟩,
    fun c => decodeState_held, hbits, fun s => ?_⟩
  · rw [step_of_no_moves hm, blockCycle_reserved h, if_neg (State.completesTwice_ne (.inl rfl))]
  · rw [step_of_moves hm]
    exact (blockCycle_reserved (s := { s with script := rest }) h).trans
      (if_neg (State.completesTwice_ne (s := { s with script := rest }) honce))
  · rw [step_of_moves hm, applyInput, blockCycle_reserved (s := { s with script := rest }) h]
    split
    · exact ⟨_, rfl⟩
    · exact ⟨_, rfl⟩
  · rw [State.statusWord_phase]
    exact hbits s.phase

end Encoding

section UnreadBits

variable {s t : State} {r : Word}

/-! ## Response bits that no rule reads (30_encoding.md rules R78 and R82) -/

/-- An exchange does not depend on the response, if its ISSUE action does not and its completion
answers both responses alike. -/
theorem exchange_withWord {pre : State → State} {frame : State → Word}
    {complete : Word → State → State}
    (hissue : (withWord r s).issueFrame pre frame = withWord r (s.issueFrame pre frame))
    (hcomplete : complete r (withWord r { s with phase := .issue }) =
      withWord r (complete s.pins.rxWord { s with phase := .issue })) :
    exchange pre frame complete (withWord r s) =
      mapNext (withWord r) (exchange pre frame complete s) := by
  cases hp : s.phase with
  | issue => rw [exchange_issue hp, exchange_issue (s := withWord r s) hp, hissue]; rfl
  | req =>
    cases hr : s.pins.txReady
    · rw [exchange_offered hp hr, exchange_offered (s := withWord r s) hp hr]; rfl
    · rw [exchange_accepted hp hr, exchange_accepted (s := withWord r s) hp hr]; rfl
  | rsp =>
    cases hv : s.pins.rxValid
    · rw [exchange_pending hp hv, exchange_pending (s := withWord r s) hp hv]; rfl
    cases hf : s.pins.rxFail
    · rw [exchange_completed hp hv hf, exchange_completed (s := withWord r s) hp hv hf, mapNext,
        ← hcomplete]
      rfl
    · rw [exchange_failed hp hv hf, exchange_failed (s := withWord r s) hp hv hf]; rfl

/-- RX_TAG is the upper byte of RX_HI (R100). -/
theorem rxTag_eq_rxHi (r : Word) : rxTag r = (rxHi r).extractLsb' 8 8 := by
  ext k hk
  simp [rxTag, rxHi, show 8 + k < 16 by omega, ← Nat.add_assoc]

/-- RX_PARAM is the lower byte of RX_HI (R100). -/
theorem rxParam_eq_rxHi (r : Word) : rxParam r = (rxHi r).extractLsb' 0 8 := by
  ext k hk
  simp [rxParam, rxHi, show k < 16 by omega]

/-- An accepted token gives the keystream and crcA (R142). -/
theorem State.tokenDone_accepted (h : rxTag r = 0x73#8) :
    State.tokenDone r s =
      { s with seed := seedInit (rxParam r), crca := crcaAdj (rxParam r), state := 9#5 } := by
  rw [State.tokenDone, if_neg (not_not.2 h)]

/-- An accepted echo steps CURSOR (R150). -/
theorem State.payDone_accepted (h : rxHi r = s.cursorLow) :
    State.payDone r s =
      { s with
        cursor := s.cursor + 4#32
        state := if s.cursor + 4#32 < s.padlen then 11#5 else 12#5 } := by
  rw [State.payDone, if_neg (not_not.2 h)]

/-- Settles O49: exchange by exchange, the completion reads of the response what the two have in
common. -/
theorem unreadResponseBitsIgnored : Obligations.UnreadResponseBitsIgnored := by
  refine ⟨fun i hi s r => ?_, fun i hi s r hword => ?_, fun s r hword => ?_,
    fun i hi s r hword htag hecho => ?_⟩
  · simp only [List.mem_cons, List.not_mem_nil, or_false] at hi
    rcases hi with rfl | rfl | rfl | rfl | rfl | rfl | rfl | rfl <;> exact exchange_withWord rfl rfl
  · have hhi : rxHi r = rxHi s.pins.rxWord := hword
    simp only [List.mem_cons, List.not_mem_nil, or_false] at hi
    rcases hi with rfl | rfl | rfl <;> refine exchange_withWord rfl ?_
    · simp only [State.pollDone, hsReady, hhi]; rfl
    · simp only [State.pollDone, finReady, hhi]; rfl
    · simp only [State.crcDone, hhi]; rfl
  · have hparam : rxParam r = rxParam s.pins.rxWord := hword
    refine exchange_withWord rfl ?_
    simp only [State.lenDone, hparam]
    rfl
  · have hhi : rxHi r = rxHi s.pins.rxWord := hword
    simp only [List.mem_cons, List.not_mem_nil, or_false] at hi
    rcases hi with rfl | rfl <;> refine exchange_withWord rfl ?_
    · have htag' : rxTag s.pins.rxWord = 0x73#8 := by
        rw [rxTag_eq_rxHi, ← hhi, ← rxTag_eq_rxHi]; exact htag rfl
      rw [State.tokenDone_accepted (htag rfl), State.tokenDone_accepted htag', rxParam_eq_rxHi r, hhi,
        ← rxParam_eq_rxHi]
      rfl
    · have hecho' : rxHi s.pins.rxWord = s.cursorLow := hhi.symm.trans (hecho rfl)
      rw [State.payDone_accepted (s := { s with phase := .issue }) hecho',
        State.payDone_accepted (s := withWord r { s with phase := .issue }) (hecho rfl)]
      rfl

end UnreadBits

end Sys2Proof.Machine

/-! SUPPORT. Proof that every step keeps the invariant (30_encoding.md rule R81; 10_state.md rules R22, R29,
R30 and R46; 43_payload.md rule R151; 60_exceptions.md rule R201). -/

namespace Sys2Proof.Machine

open Sys2Proof.Safety

section DatapathUnits

/-! ## Units as concatenations (40_datapath_units.md rules R112 and R116) -/

theorem append_eq_or {n m : Nat} (x : BitVec n) (y : BitVec m) :
    x ++ y = x.setWidth (n + m) <<< m ||| y.setWidth (n + m) := by
  rw [BitVec.append_def, BitVec.shiftLeftZeroExtend_eq, BitVec.setWidth'_eq]

theorem foldWord_eq_append (a b : Byte) : foldWord a b = 0xFFFF#16 ++ b ++ a := by
  refine Eq.trans ?_ (append_eq_or (0xFFFF#16 ++ b) a).symm
  rw [append_eq_or, foldWord]
  ext k hk
  simp only [BitVec.getElem_or, BitVec.getElem_shiftLeft, BitVec.getElem_setWidth]
  interval_cases k <;> simp

/-- The seed is the fold word with the constant 0xD1 in the place of crcA. -/
theorem seedInit_eq_append (a : Byte) : seedInit a = 0xFFFF#16 ++ a ++ 0xD1#8 := by
  rw [← foldWord_eq_append, seedInit, foldWord, BitVec.or_assoc, BitVec.or_comm (a.setWidth 32 <<< 8),
    ← BitVec.or_assoc]
  rfl

/-- The adjustment of crcA undone (R114). -/
theorem crcaAdj_sub (a : Byte) : crcaAdj a - 0x0F#8 = a := BitVec.add_sub_cancel a _

end DatapathUnits

section Invariant

variable {s t : State}

/-! ## The invariant, state by state (10_state.md rules R29, R30, R33 and R46) -/

/-- LEN is in the range of a session (R172). -/
def LenInRange (s : State) : Prop := 0xC0 ≤ s.len.toNat ∧ s.len.toNat ≤ 0x40000

/-- Where CURSOR and PADLEN stand when STATE holds the code `c`. -/
def PlacedAt (c : BitVec 5) (s : State) : Prop :=
  match c.toNat with
  | 1 | 2 | 3 => LenInRange s ∧ s.cursor = 0#32 ∧ s.padlen = 0#32
  | 4 => LenInRange s ∧ (s.cursor.toNat % 2 = 0 ∧ s.cursor.toNat < 0xC0) ∧ s.padlen = 0#32
  | 5 | 6 | 7 | 8 | 9 => LenInRange s ∧ s.cursor = 0xC0#32 ∧ s.padlen = 0#32
  | 10 => LenInRange s ∧ s.cursor = 0xC0#32 ∧ s.padlen = padOf s
  | 11 => LenInRange s ∧ (s.cursor.toNat % 4 = 0 ∧ 0xC0 ≤ s.cursor.toNat ∧
      s.cursor.toNat < s.padlen.toNat) ∧ s.padlen = padOf s
  | 12 | 13 | 14 | 15 | 16 | 17 => LenInRange s ∧ s.cursor = s.padlen ∧ s.padlen = padOf s
  | 18 => s.cursor = s.padlen ∧ s.padlen.toNat % 16 = 0 ∧ 0xC0 ≤ s.padlen.toNat ∧
      s.padlen.toNat ≤ 0x40000
  | _ => True

/-- Nothing of the key exchange is held yet. -/
def KeyClear (s : State) : Prop := s.seed = 0#32 ∧ s.crca = 0#8

/-- SEED and CRCA come from the same token (R142). -/
def KeyFromToken (s : State) : Prop := s.seed = 0xFFFF#16 ++ (s.crca - 0x0F#8) ++ 0xD1#8

/-- Nothing of the CRC is held yet. -/
def CrcClear (s : State) : Prop := s.crc = 0#16 ∧ s.crcb = 0#8

/-- The peer's CRC is not held yet. -/
def PeerClear (s : State) : Prop := s.peerCrc = 0#16 ∧ s.crcMatch = false

/-- What the session registers and DELAY hold when STATE holds the code `c`. -/
def FreshAt (c : BitVec 5) (s : State) : Prop :=
  match c.toNat with
  | 1 | 3 | 4 | 5 | 6 | 7 | 8 => KeyClear s ∧ CrcClear s ∧ PeerClear s ∧ s.delay = 0#32
  | 2 => KeyClear s ∧ CrcClear s ∧ PeerClear s
  | 9 | 10 => KeyFromToken s ∧ CrcClear s ∧ PeerClear s ∧ s.delay = 0#32
  | 15 => PeerClear s
  | 18 => s.crcMatch = (s.peerCrc == s.crc) ∧ s.delay = 0#32
  | _ => PeerClear s ∧ s.delay = 0#32

/-- The twenty codes of STATE (R21). -/
theorem code_cases : ∀ c : BitVec 5, c.toNat < 20 →
    c ∈ [0#5, 1#5, 2#5, 3#5, 4#5, 5#5, 6#5, 7#5, 8#5, 9#5, 10#5, 11#5, 12#5, 13#5, 14#5, 15#5, 16#5,
      17#5, 18#5, 19#5] := by decide

/-- The clauses of `CursorPlaced` that bind in a code are the code's row of the table. -/
theorem cursorPlaced_iff (h : s.state.toNat < 20) : CursorPlaced s ↔ PlacedAt s.state s := by
  have hclauses : CursorPlaced s ↔ _ :=
    ⟨fun ⟨h1, h2, h3, h4, h5, h6, h7, h8, h9⟩ => And.intro h1 <| And.intro h2 <| And.intro h3 <|
      And.intro h4 <| And.intro h5 <| And.intro h6 <| And.intro h7 <| And.intro h8 h9,
     fun ⟨h1, h2, h3, h4, h5, h6, h7, h8, h9⟩ => ⟨h1, h2, h3, h4, h5, h6, h7, h8, h9⟩⟩
  have hcode := code_cases _ h
  rw [hclauses]
  simp only [List.mem_cons, List.not_mem_nil, or_false] at hcode
  rcases hcode with hs | hs | hs | hs | hs | hs | hs | hs | hs | hs | hs | hs | hs | hs | hs | hs |
    hs | hs | hs | hs <;> simp [hs, busy_eq_true_iff, PlacedAt, LenInRange, padOf]

/-- The clauses of `SessionFresh` that bind in a code are the code's row of the table, and the bound on
DELAY. -/
theorem sessionFresh_iff (h : s.state.toNat < 20) :
    SessionFresh s ↔ FreshAt s.state s ∧ s.delay.toNat ≤ (delayTicks s.cfg).toNat := by
  have hclauses : SessionFresh s ↔ _ :=
    ⟨fun ⟨h1, h2, h3, h4, h5, h6, h7⟩ => And.intro h1 <| And.intro h2 <| And.intro h3 <|
      And.intro h4 <| And.intro h5 <| And.intro h6 h7,
     fun ⟨h1, h2, h3, h4, h5, h6, h7⟩ => ⟨h1, h2, h3, h4, h5, h6, h7⟩⟩
  have hcode := code_cases _ h
  rw [hclauses]
  simp only [List.mem_cons, List.not_mem_nil, or_false] at hcode
  rcases hcode with hs | hs | hs | hs | hs | hs | hs | hs | hs | hs | hs | hs | hs | hs | hs | hs |
    hs | hs | hs | hs <;>
    simp [hs, busy_eq_true_iff, FreshAt, KeyClear, KeyFromToken, CrcClear, PeerClear, and_assoc]

/-- The padded length of a session is a multiple of 16 inside the space (R110, R172). -/
theorem padOf_bounds (h : LenInRange s) :
    (padOf s).toNat % 16 = 0 ∧ 0xC0 ≤ (padOf s).toNat ∧ (padOf s).toNat ≤ 0x40000 := by
  obtain ⟨hlo, hhi⟩ := h
  rw [padOf, toNat_and_not_fifteen]
  bv_omega

/-- ERROR places nothing. -/
theorem placedAt_error (s : State) : PlacedAt 19#5 s := trivial

theorem Completed.placedAt (h : Completed s t) (hs : PlacedAt s.state s) : PlacedAt t.state t := by
  rcases h with ⟨hc, rfl⟩ | ⟨hc, rfl⟩ | ⟨hc, rfl⟩ | ⟨hc, rfl⟩ | ⟨hc, rfl⟩ | ⟨hc, rfl⟩ | ⟨hc, rfl⟩ |
    ⟨hc, -, rfl⟩ | ⟨hc, -, rfl⟩ | ⟨hc, rfl⟩ | ⟨hc, rfl⟩ | ⟨hc, -, rfl⟩ | ⟨hc, -, rfl⟩ | ⟨hc, rfl⟩ |
    ⟨hc, rfl⟩ | ⟨hc, rfl⟩ <;> rw [hc] at hs
  · exact hs
  · exact hs
  · obtain ⟨hlen, -, hpad⟩ := hs
    exact ⟨hlen, (by decide : (0#32).toNat % 2 = 0 ∧ (0#32).toNat < 0xC0), hpad⟩
  · obtain ⟨hlen, ⟨heven, hlt⟩, hpad⟩ := hs
    change PlacedAt (if s.cursor + 2#32 = 0xC0#32 then 5#5 else 4#5) _
    split
    · rename_i hend
      exact ⟨hlen, hend, hpad⟩
    · exact ⟨hlen, by bv_omega, hpad⟩
  · exact hs
  · exact hs
  · exact hs
  · exact hs
  · exact placedAt_error _
  · obtain ⟨hlen, hcursor, -⟩ := hs
    exact ⟨hlen, hcursor, rfl⟩
  · obtain ⟨hlen, hcursor, hpad⟩ := hs
    obtain ⟨h16, hlo, hhi⟩ := padOf_bounds hlen
    rw [← hpad] at h16 hlo hhi
    change PlacedAt (if s.cursor < s.padlen then 11#5 else 12#5) _
    split
    · rename_i hlt
      exact ⟨hlen, by bv_omega, hpad⟩
    · exact ⟨hlen, by bv_omega, hpad⟩
  · obtain ⟨hlen, ⟨h4, hlow, hlt⟩, hpad⟩ := hs
    obtain ⟨h16, -, hhi⟩ := padOf_bounds hlen
    rw [← hpad] at h16 hhi
    change PlacedAt (if s.cursor + 4#32 < s.padlen then 11#5 else 12#5) _
    split
    · rename_i hmore
      exact ⟨hlen, by bv_omega, hpad⟩
    · exact ⟨hlen, by bv_omega, hpad⟩
  · exact placedAt_error _
  · exact hs
  · exact hs
  · obtain ⟨hlen, hcursor, hpad⟩ := hs
    exact ⟨hcursor, by rw [hpad]; exact padOf_bounds hlen⟩

theorem CycleEffect.placedAt (h : CycleEffect s t) (hs : PlacedAt s.state s) :
    PlacedAt t.state t := by
  cases h with
  | rest ht | count _ _ ht | issue _ _ _ _ ht | issuePay _ _ _ ht | accept _ _ _ ht =>
    subst ht; exact hs
  | leaveHs hc _ ht =>
    subst ht
    rw [hc] at hs
    change PlacedAt (if s.pollhit then 3#5 else 1#5) _
    split <;> exact hs
  | leaveFin hc _ ht =>
    subst ht
    rw [hc] at hs
    change PlacedAt (if s.pollhit then 16#5 else 14#5) _
    split <;> exact hs
  | fold hc ht => subst ht; rw [hc] at hs; exact hs
  | fail _ _ _ _ ht => subst ht; exact placedAt_error _
  | complete _ _ _ _ hc => exact hc.placedAt hs

/-! ## The session registers and DELAY (10_state.md rules R24, R33 and R46) -/

theorem Completed.freshAt (h : Completed s t) (hs : FreshAt s.state s) : FreshAt t.state t := by
  rcases h with ⟨hc, rfl⟩ | ⟨hc, rfl⟩ | ⟨hc, rfl⟩ | ⟨hc, rfl⟩ | ⟨hc, rfl⟩ | ⟨hc, rfl⟩ | ⟨hc, rfl⟩ |
    ⟨hc, -, rfl⟩ | ⟨hc, -, rfl⟩ | ⟨hc, rfl⟩ | ⟨hc, rfl⟩ | ⟨hc, -, rfl⟩ | ⟨hc, -, rfl⟩ | ⟨hc, rfl⟩ |
    ⟨hc, rfl⟩ | ⟨hc, rfl⟩ <;> rw [hc] at hs
  · obtain ⟨hkey, hcrc, hpeer, -⟩ := hs
    exact ⟨hkey, hcrc, hpeer⟩
  · obtain ⟨hpeer, -⟩ := hs
    exact hpeer
  · exact hs
  · change FreshAt (if s.cursor + 2#32 = 0xC0#32 then 5#5 else 4#5) _
    split <;> exact hs
  · exact hs
  · exact hs
  · exact hs
  · obtain ⟨-, hcrc, hpeer, hdelay⟩ := hs
    refine ⟨?_, hcrc, hpeer, hdelay⟩
    rw [KeyFromToken, crcaAdj_sub]
    exact seedInit_eq_append _
  · obtain ⟨-, -, hpeer, hdelay⟩ := hs
    exact ⟨hpeer, hdelay⟩
  · exact hs
  · obtain ⟨-, -, hpeer, hdelay⟩ := hs
    change FreshAt (if s.cursor < s.padlen then 11#5 else 12#5) _
    split <;> exact ⟨hpeer, hdelay⟩
  · change FreshAt (if s.cursor + 4#32 < s.padlen then 11#5 else 12#5) _
    split <;> exact hs
  · exact hs
  · exact hs
  · exact hs
  · obtain ⟨-, hdelay⟩ := hs
    exact ⟨rfl, hdelay⟩

theorem CycleEffect.freshAt (h : CycleEffect s t) (hfresh : SessionFresh s)
    (hs : FreshAt s.state s) : FreshAt t.state t := by
  cases h with
  | rest ht | issue _ _ _ _ ht | accept _ _ _ ht => subst ht; exact hs
  | count hc _ ht =>
    subst ht
    change FreshAt s.state _
    rcases hc with hc | hc <;> rw [hc] at hs ⊢ <;> exact hs
  | issuePay _ hc _ ht =>
    subst ht
    change FreshAt s.state _
    rw [hc] at hs ⊢
    exact hs
  | leaveHs hc hd ht =>
    subst ht
    rw [hc] at hs
    obtain ⟨hkey, hcrc, hpeer⟩ := hs
    change FreshAt (if s.pollhit then 3#5 else 1#5) _
    split <;> exact ⟨hkey, hcrc, hpeer, hd⟩
  | leaveFin hc hd ht =>
    subst ht
    rw [hc] at hs
    change FreshAt (if s.pollhit then 16#5 else 14#5) _
    split <;> exact ⟨hs, hd⟩
  | fold hc ht => subst ht; rw [hc] at hs; exact hs
  | fail he _ _ _ ht =>
    subst ht
    have hne {c : BitVec 5} (hquiet : exchangeState c = false) : s.state ≠ c := fun hc => by
      rw [hc, hquiet] at he
      cases he
    exact ⟨hfresh.peerEarly (hne (by decide)),
      hfresh.delayOnlyInWait (hne (by decide)) (hne (by decide))⟩
  | complete _ _ _ _ hc => exact hc.freshAt hs

/-- A block cycle leaves DELAY, loads it or counts it down. -/
theorem CycleEffect.delay_le (h : CycleEffect s t)
    (hs : s.delay.toNat ≤ (delayTicks s.cfg).toNat) :
    t.delay.toNat ≤ (delayTicks t.cfg).toNat := by
  cases h with
  | rest ht | leaveHs _ _ ht | leaveFin _ _ ht | fold _ ht | issue _ _ _ _ ht | issuePay _ _ _ ht
  | accept _ _ _ ht | fail _ _ _ _ ht => subst ht; exact hs
  | count _ hd ht => subst ht; bv_omega
  | complete _ _ _ _ hc =>
    rcases hc with ⟨-, rfl⟩ | ⟨-, rfl⟩ | ⟨-, rfl⟩ | ⟨-, rfl⟩ | ⟨-, rfl⟩ | ⟨-, rfl⟩ | ⟨-, rfl⟩ |
      ⟨-, -, rfl⟩ | ⟨-, -, rfl⟩ | ⟨-, rfl⟩ | ⟨-, rfl⟩ | ⟨-, -, rfl⟩ | ⟨-, -, rfl⟩ | ⟨-, rfl⟩ |
      ⟨-, rfl⟩ | ⟨-, rfl⟩
    · exact le_refl _
    · exact le_refl _
    all_goals exact hs

/-! ## The codes and the error record (30_encoding.md rule R81, 60_exceptions.md rule R201) -/

/-- The sequence stays below the reserved codes. -/
theorem Follows.lt_twenty {a b : BitVec 5} (h : Follows a b) (ha : a.toNat < 20) :
    b.toNat < 20 := by
  have hedge : ∀ e ∈ sequenceEdges, e.2 < 20 := by decide
  rcases h with hrest | hmove | ⟨-, herror⟩
  · rw [hrest]; exact ha
  · exact hedge _ hmove
  · rw [herror]; decide

theorem CycleEffect.codesLegal (h : CycleEffect s t) (hs : CodesLegal s) : CodesLegal t where
  state := h.follows.lt_twenty hs.state
  phaseQuiet := by
    have hquiet {c : BitVec 5} (hc : s.state = c) (hx : exchangeState c = false) :
        s.phase = .issue := hs.phaseQuiet (by rw [hc, hx])
    cases h with
    | rest ht | count _ _ ht => subst ht; exact hs.phaseQuiet
    | leaveHs hc _ ht | leaveFin hc _ ht | fold hc ht =>
      subst ht; exact fun _ => hquiet hc (by decide)
    | issue _ he _ _ ht | accept he _ _ ht =>
      subst ht; exact fun hx => absurd (he.symm.trans hx) (by decide)
    | issuePay _ hc _ ht =>
      subst ht
      exact fun hx => absurd ((congrArg exchangeState hc).symm.trans hx) (by decide)
    | fail _ _ _ _ ht => subst ht; exact fun _ => rfl
    | complete _ _ _ _ hc => exact fun _ => hc.phase

/-- The error registers hold nothing. -/
def ErrorClear (s : State) : Prop :=
  s.errcode = 0#3 ∧ s.errstate = 0#5 ∧ s.errOffset = 0#32 ∧ s.errInfo = 0#32

theorem errorRecorded_of_clear {c : BitVec 5} (hc : s.state = c) (hne : c ≠ 19#5)
    (h : ErrorClear s) : ErrorRecorded s :=
  ⟨fun _ => h, fun he => absurd (hc.symm.trans he) hne⟩

theorem errorRecorded_of_choice {p : Prop} [Decidable p] {b c : BitVec 5}
    (hs : s.state = if p then b else c) (hb : b ≠ 19#5) (hc : c ≠ 19#5) (h : ErrorClear s) :
    ErrorRecorded s := by
  split at hs
  · exact errorRecorded_of_clear hs hb h
  · exact errorRecorded_of_clear hs hc h

/-- A completion enters ERROR by a rejected token or echo only, with its record. -/
theorem Completed.errorRecorded (h : Completed s t) (hclear : ErrorClear s)
    (hplaced : PlacedAt s.state s) : ErrorRecorded t := by
  rcases h with ⟨hc, rfl⟩ | ⟨hc, rfl⟩ | ⟨hc, rfl⟩ | ⟨hc, rfl⟩ | ⟨hc, rfl⟩ | ⟨hc, rfl⟩ | ⟨hc, rfl⟩ |
    ⟨hc, -, rfl⟩ | ⟨hc, htag, rfl⟩ | ⟨hc, rfl⟩ | ⟨hc, rfl⟩ | ⟨hc, -, rfl⟩ | ⟨hc, hecho, rfl⟩ |
    ⟨hc, rfl⟩ | ⟨hc, rfl⟩ | ⟨hc, rfl⟩
  · exact errorRecorded_of_clear (c := 2#5) rfl (by decide) hclear
  · exact errorRecorded_of_clear (c := 15#5) rfl (by decide) hclear
  · exact errorRecorded_of_clear (c := 4#5) rfl (by decide) hclear
  · exact errorRecorded_of_choice (b := 5#5) (c := 4#5) rfl (by decide) (by decide) hclear
  · exact errorRecorded_of_clear (c := 6#5) rfl (by decide) hclear
  · exact errorRecorded_of_clear (c := 7#5) rfl (by decide) hclear
  · exact errorRecorded_of_clear (c := 8#5) rfl (by decide) hclear
  · exact errorRecorded_of_clear (c := 9#5) rfl (by decide) hclear
  · rw [hc] at hplaced
    obtain ⟨-, hcursor, -⟩ := hplaced
    exact ⟨fun hne => absurd rfl hne, fun _ => .inr (.inr (.inl ⟨rfl, hc, hcursor, htag⟩))⟩
  · exact errorRecorded_of_clear (c := 10#5) rfl (by decide) hclear
  · exact errorRecorded_of_choice (b := 11#5) (c := 12#5) rfl (by decide) (by decide) hclear
  · exact errorRecorded_of_choice (b := 11#5) (c := 12#5) rfl (by decide) (by decide) hclear
  · exact ⟨fun hne => absurd rfl hne, fun _ => .inr (.inr (.inr ⟨rfl, hc, rfl, hecho⟩))⟩
  · exact errorRecorded_of_clear (c := 14#5) rfl (by decide) hclear
  · exact errorRecorded_of_clear (c := 17#5) rfl (by decide) hclear
  · exact errorRecorded_of_clear (c := 18#5) rfl (by decide) hclear

theorem CycleEffect.errorRecorded (h : CycleEffect s t) (hs : ErrorRecorded s)
    (hplaced : PlacedAt s.state s) : ErrorRecorded t := by
  have hclear {c : BitVec 5} (hc : s.state = c) (hne : c ≠ 19#5) : ErrorClear s :=
    hs.none (by rw [hc]; exact hne)
  have hexchange (he : exchangeState s.state = true) : s.state ≠ 19#5 := fun hc => by
    rw [hc] at he
    cases he
  cases h with
  | rest ht => subst ht; exact hs
  | count hc _ ht =>
    subst ht
    rcases hc with hc | hc <;>
      exact errorRecorded_of_clear hc (by decide) (hclear hc (by decide))
  | leaveHs hc _ ht =>
    subst ht
    exact errorRecorded_of_choice (b := 3#5) (c := 1#5) rfl (by decide) (by decide)
      (hclear hc (by decide))
  | leaveFin hc _ ht =>
    subst ht
    exact errorRecorded_of_choice (b := 16#5) (c := 14#5) rfl (by decide) (by decide)
      (hclear hc (by decide))
  | fold hc ht =>
    subst ht; exact errorRecorded_of_clear (c := 13#5) rfl (by decide) (hclear hc (by decide))
  | issue _ he _ _ ht | accept he _ _ ht =>
    subst ht; exact errorRecorded_of_clear rfl (hexchange he) (hs.none (hexchange he))
  | issuePay _ hc _ ht =>
    subst ht; exact errorRecorded_of_clear hc (by decide) (hclear hc (by decide))
  | fail he _ _ _ ht =>
    subst ht
    exact ⟨fun hne => absurd rfl hne, fun _ => .inr (.inl ⟨rfl, he, rfl, rfl⟩)⟩
  | complete he _ _ _ hc => exact hc.errorRecorded (hs.none (hexchange he)) hplaced

/-! ## The whole invariant -/

/-- The part of the invariant that speaks of the block's registers alone. -/
structure RegistersOK (s : State) : Prop where
  codes : CodesLegal s
  cursor : CursorPlaced s
  fresh : SessionFresh s
  errors : ErrorRecorded s

theorem registersOK_of_inv (h : Inv s) : RegistersOK s := ⟨h.codes, h.cursor, h.fresh, h.errors⟩

/-- What stands outside the block plays no part in it: every clause is about registers that stay. -/
theorem RegistersOK.of_outside (h : RegistersOK s) {image : Memory} {pins : Pins} {rdata : Word}
    {cut : Bool} {request : Request} {script : List Input} :
    RegistersOK { s with
      image := image, pins := pins, rdata := rdata, cut := cut, request := request
      script := script } :=
  let ⟨⟨h1, h2⟩, ⟨h3, h4, h5, h6, h7, h8, h9, h10, h11⟩, ⟨h12, h13, h14, h15, h16, h17, h18⟩,
    ⟨h19, h20⟩⟩ := h
  ⟨⟨h1, h2⟩, ⟨h3, h4, h5, h6, h7, h8, h9, h10, h11⟩, ⟨h12, h13, h14, h15, h16, h17, h18⟩,
    ⟨h19, h20⟩⟩

/-- A block cycle keeps the registers in order. -/
theorem CycleEffect.registersOK (h : CycleEffect s t) (hs : RegistersOK s) : RegistersOK t := by
  obtain ⟨hcodes, hcursor, hfresh, herrors⟩ := hs
  have hcodes' := h.codesLegal hcodes
  have hplaced := (cursorPlaced_iff hcodes.state).1 hcursor
  obtain ⟨hheld, hdelay⟩ := (sessionFresh_iff hcodes.state).1 hfresh
  exact ⟨hcodes', (cursorPlaced_iff hcodes'.state).2 (h.placedAt hplaced),
    (sessionFresh_iff hcodes'.state).2 ⟨h.freshAt hfresh hheld, h.delay_le hdelay⟩,
    h.errorRecorded herrors hplaced⟩

/-- The registers are in order when they stand as the table says of their STATE, in PHASE ISSUE. -/
theorem registersOK_of_code {c : BitVec 5} (hc : s.state = c) (hlt : c.toNat < 20)
    (hphase : s.phase = .issue) (hplaced : PlacedAt c s) (hfresh : FreshAt c s)
    (hdelay : s.delay = 0#32) (herrors : ErrorRecorded s) : RegistersOK s := by
  subst hc
  exact ⟨⟨hlt, fun _ => hphase⟩, (cursorPlaced_iff hlt).2 hplaced,
    (sessionFresh_iff hlt).2 ⟨hfresh, hdelay ▸ Nat.zero_le _⟩, herrors⟩

/-- The registers as an accepted START leaves them (R171). -/
theorem registersOK_started (hlen : LenInRange s) :
    RegistersOK { s.clearSession with state := 1#5 } :=
  registersOK_of_code (c := 1#5) rfl (by decide) rfl ⟨hlen, rfl, rfl⟩
    ⟨⟨rfl, rfl⟩, ⟨rfl, rfl⟩, ⟨rfl, rfl⟩, rfl⟩ rfl
    (errorRecorded_of_clear (c := 1#5) rfl (by decide) ⟨rfl, rfl, rfl, rfl⟩)

/-- The registers as START leaves them with LEN out of range (R172). -/
theorem registersOK_precond (hlen : ¬ LenInRange s) :
    RegistersOK (s.clearSession.raiseError 1#3 0#32 s.len) :=
  registersOK_of_code (c := 19#5) rfl (by decide) rfl trivial ⟨⟨rfl, rfl⟩, rfl⟩ rfl
    ⟨fun hne => absurd rfl hne, fun _ => .inl ⟨rfl, rfl, rfl, hlen⟩⟩

/-- The registers after a reset (R46). -/
theorem registersOK_reset (s : State) : RegistersOK s.resetBlock :=
  registersOK_of_code (c := 0#5) rfl (by decide) rfl trivial ⟨⟨rfl, rfl⟩, rfl⟩ rfl
    (errorRecorded_of_clear (c := 0#5) rfl (by decide) ⟨rfl, rfl, rfl, rfl⟩)

/-- LEN is free outside a session (R173). -/
theorem RegistersOK.of_len (h : RegistersOK s) (hb : s.busy = false) (v : Word) :
    RegistersOK { s with len := v } := by
  obtain ⟨⟨hlt, hquiet⟩, hcursor, ⟨h1, h2, h3, h4, h5, h6, h7⟩, ⟨hnone, hcause⟩⟩ := h
  refine ⟨⟨hlt, hquiet⟩, (cursorPlaced_iff (s := { s with len := v }) hlt).2 ?_,
    ⟨h1, h2, h3, h4, h5, h6, h7⟩, ⟨hnone, hcause⟩⟩
  have hplaced := (cursorPlaced_iff hlt).1 hcursor
  change PlacedAt s.state _
  rcases busy_eq_false_iff.1 hb with hs | hs | hs <;> rw [hs] at hplaced ⊢ <;> exact hplaced

theorem step_registersOK (h : step s = .next t) (hs : RegistersOK s) : RegistersOK t := by
  cases step_effect h with
  | cycle p rest i _ _ s0 h0 hd he =>
    have hs0 : RegistersOK s0 := h0 ▸ hs.of_outside
    exact (cycle_effect hd he).registersOK hs0
  | start v rest _ _ s0 h0 he =>
    have hs0 : RegistersOK s0 := h0 ▸ hs.of_outside
    rcases start_effect he with ⟨-, rfl⟩ | ⟨-, hlo, hhi, rfl⟩ | ⟨-, hlen, rfl⟩
    · exact hs0
    · exact registersOK_started ⟨hlo, hhi⟩
    · exact registersOK_precond hlen
  | lenWrite v rest _ s0 h0 he =>
    have hs0 : RegistersOK s0 := h0 ▸ hs.of_outside
    rcases lenWrite_effect he with ⟨-, rfl⟩ | ⟨hb, rfl⟩
    · exact hs0
    · exact hs0.of_len hb v
  | rst rest _ ht => subst ht; exact registersOK_reset _
  | read _ _ _ _ _ ht | ignored _ _ _ _ ht | image _ _ _ _ _ _ ht | drain _ _ ht
  | relink _ _ ht => subst ht; exact hs.of_outside

/-- A step keeps the canonical form of the image. -/
theorem step_image_wf (h : step s = .next t) (hs : Memory.wf s.image) : Memory.wf t.image := by
  cases step_effect h with
  | cycle p rest i _ _ s0 h0 hd he =>
    have himage : t.image = s0.image := congrArg Outside.image (exec_outside (decodeState_ne_regRead hd) he)
    subst h0
    exact himage ▸ hs
  | start v rest _ _ s0 h0 he =>
    have himage : t.image = s0.image := congrArg Outside.image (exec_outside (i := .start) nofun he)
    subst h0
    exact himage ▸ hs
  | lenWrite v rest _ s0 h0 he =>
    have himage : t.image = s0.image := congrArg Outside.image (exec_outside (i := .lenWrite v) nofun he)
    subst h0
    exact himage ▸ hs
  | image off b rest _ hoff _ ht => subst ht; exact Memory.write_wf _ _ _ hs hoff
  | rst _ _ ht | read _ _ _ _ _ ht | ignored _ _ _ _ ht | drain _ _ ht | relink _ _ ht =>
    subst ht; exact hs

/-- A block cycle that ends in RSP waited there, or was the acceptance. -/
theorem CycleEffect.rsp_of (h : CycleEffect s t) (hs : CodesLegal s) (ht : t.phase = .rsp) :
    (s.phase = .rsp ∧ s.pins.rxValid = false) ∨ (s.phase = .req ∧ s.pins.txReady = true) := by
  have hno {c : BitVec 5} (hc : s.state = c) (hx : exchangeState c = false) : s.phase ≠ .rsp := by
    rw [hs.phaseQuiet (by rw [hc, hx])]
    decide
  cases h with
  | rest he hq =>
    subst he
    rcases hq with hb | ⟨hp, -⟩ | hwait
    · exact absurd ht (hno rfl (Bool.eq_false_iff.2 fun hx =>
        Bool.false_ne_true (hb.symm.trans (busy_of_exchangeState hx))))
    · exact absurd (hp.symm.trans ht) (by decide)
    · exact .inl hwait
  | count hc _ he =>
    subst he
    rcases hc with hc | hc <;> exact absurd ht (hno hc (by decide))
  | leaveHs hc _ he | leaveFin hc _ he | fold hc he =>
    subst he; exact absurd ht (hno hc (by decide))
  | issue _ _ _ _ he | issuePay _ _ _ he | fail _ _ _ _ he => subst he; cases ht
  | accept _ hp hr _ => exact .inr ⟨hp, hr⟩
  | complete _ _ _ _ hc => exact absurd (hc.phase.symm.trans ht) (by decide)

/-- One request is outstanding in RSP (R44). -/
theorem step_pending (h : step s = .next t) (hs : CodesLegal s)
    (hpending : s.phase = .rsp → s.request = .outstanding) :
    t.phase = .rsp → t.request = .outstanding := by
  cases step_effect h with
  | cycle p rest i _ _ s0 h0 hd he =>
    intro hrsp
    have hrequest := congrArg Outside.request (exec_outside (decodeState_ne_regRead hd) he)
    have hcodes : CodesLegal s0 := by subst h0; exact ⟨hs.state, hs.phaseQuiet⟩
    have hcause := (cycle_effect hd he).rsp_of hcodes hrsp
    subst h0
    refine Eq.trans hrequest (?_ : s.nextRequest p = .outstanding)
    rcases hcause with ⟨hp, hv⟩ | ⟨hp, hr⟩
    · have hvalid : p.rxValid = false := hv
      simp [State.nextRequest, State.txValid, show s.phase = .rsp from hp, hvalid, hpending hp]
    · have hready : p.txReady = true := hr
      simp [State.nextRequest, State.txValid, show s.phase = .req from hp, hready]
  | start v rest _ _ s0 h0 he =>
    subst h0
    rcases start_effect he with ⟨-, rfl⟩ | ⟨-, -, -, rfl⟩ | ⟨-, -, rfl⟩
    · exact hpending
    · nofun
    · nofun
  | lenWrite v rest _ s0 h0 he =>
    subst h0
    rcases lenWrite_effect he with ⟨-, rfl⟩ | ⟨-, rfl⟩ <;> exact hpending
  | rst _ _ ht => subst ht; nofun
  | read _ _ _ _ _ ht | ignored _ _ _ _ ht | image _ _ _ _ _ _ ht | drain _ _ ht
  | relink _ _ ht => subst ht; exact hpending

/-- Settles O51: the registers, the account of the requests and the image, each by what a step can
do. -/
theorem stepKeepsTheInvariant : Obligations.StepKeepsTheInvariant := by
  intro s t hinv h
  obtain ⟨hcodes, hcursor, hfresh, herrors⟩ := step_registersOK h (registersOK_of_inv hinv)
  exact ⟨hcodes, hcursor, hfresh, herrors, step_pending h hinv.codes hinv.pending,
    step_image_wf h hinv.image⟩

end Invariant
end Sys2Proof.Machine

/-! SUPPORT. Proof of the whole session (30_encoding.md rules R78 and R85): one exchange as the transport
plays it (40 rules R118 and R119), the poll loops (41 rules R130 and R131), the header and the payload
loop (R133, R150), and the session they make up. -/

namespace Sys2Proof.Machine

open Sys2Proof.Safety

section Runs

variable {s t u : State}

/-! ## Runs and the frames they send -/

/-- As many steps as there are moves in `ms` lead from `s` to `t` and send the frames `fs`. -/
def Runs (s : State) (ms : List Input) (fs : List Word) (t : State) : Prop :=
  core.run ms.length s = .next t ∧ frames (trace ms.length s) = fs

theorem Runs.nil (s : State) : Runs s [] [] s := ⟨rfl, rfl⟩

theorem Runs.append {ms ms' : List Input} {fs fs' : List Word} (h : Runs s ms fs t)
    (h' : Runs t ms' fs' u) : Runs s (ms ++ ms') (fs ++ fs') u := by
  obtain ⟨hrun, hframes⟩ := h
  obtain ⟨hrun', hframes'⟩ := h'
  constructor
  · rw [List.length_append, run_add hrun, hrun']
  · rw [List.length_append, trace_add hrun, frames_append, hframes, hframes']

theorem Runs.single (m : Input) (h : step s = .next t) : Runs s [m] (frames s.events) t := by
  refine ⟨run_succ h, ?_⟩
  rw [List.length_singleton, trace_succ h, frames_append]
  exact List.append_nil _

/-- A run uses up its moves. -/
theorem Runs.script {ms rest : List Input} {fs : List Word} (h : Runs s ms fs t)
    (hscript : s.script = ms ++ rest) : t.script = rest := by
  obtain ⟨hrun, -⟩ := h
  induction ms generalizing s with
  | nil => cases hrun; exact hscript
  | cons m ms ih =>
    obtain ⟨v, hstep, hrun⟩ := run_next hrun
    refine ih ?_ hrun
    rw [(step_agents hstep).1, State.moves_of_script hscript]
    rfl

/-- `s` without what an exchange leaves behind: TXW, the pins, the account of the requests and the
moves to come. -/
def State.unlinked (s : State) : State :=
  { s with txw := 0#32, pins := Pins.quiet, request := .none, script := [] }

@[simp] theorem State.unlinked_state (s : State) : s.unlinked.state = s.state := rfl

@[simp] theorem State.unlinked_phase (s : State) : s.unlinked.phase = s.phase := rfl

/-- From `s`, whatever its link to the transport holds, the moves `ms` lead to `u` and send the frames
`fs`. -/
def Reaches (s : State) (ms : List Input) (fs : List Word) (u : State) : Prop :=
  ∀ (v : State) (rest : List Input), v.unlinked = s.unlinked → v.script = ms ++ rest →
    ∃ t, Runs v ms fs t ∧ t.unlinked = u.unlinked

theorem Reaches.refl (s : State) : Reaches s [] [] s := fun v _ hv _ => ⟨v, Runs.nil v, hv⟩

theorem Reaches.append {ms ms' : List Input} {fs fs' : List Word} (h : Reaches s ms fs t)
    (h' : Reaches t ms' fs' u) : Reaches s (ms ++ ms') (fs ++ fs') u := by
  intro v rest hv hscript
  rw [List.append_assoc] at hscript
  obtain ⟨x, hx, hlink⟩ := h v _ hv hscript
  obtain ⟨y, hy, hlink'⟩ := h' x _ hlink (hx.script hscript)
  exact ⟨y, hx.append hy, hlink'⟩

/-- A loop of exchanges, one reply a round. -/
theorem Reaches.loop {states : Nat → State} {frame : Nat → Word} {rs : List Reply}
    (hround : ∀ k (h : k < rs.length), Reaches (states k) rs[k].cycles [frame k] (states (k + 1))) :
    Reaches (states 0) (cyclesOf rs) ((List.range rs.length).map frame) (states rs.length) := by
  have hupto : ∀ k ≤ rs.length, Reaches (states 0) (cyclesOf (rs.take k))
      ((List.range k).map frame) (states k) := by
    intro k
    induction k with
    | zero => exact fun _ => Reaches.refl _
    | succ k ih =>
      intro hk
      have hstep := (ih (by omega)).append (hround k hk)
      rw [List.range_succ, List.map_append, ← List.take_concat_get' rs k hk, cyclesOf,
        List.flatMap_append, List.flatMap_singleton]
      exact hstep
  simpa using hupto rs.length le_rfl

end Runs

section OneExchange

variable {s t : State} {i : Instr} {pre : State → State} {frame : State → Word}
  {complete : Word → State → State}

/-! ## One exchange (40_datapath_units.md rules R118 and R119) -/

/-- The operation `i` is the exchange of these actions, none of which reads what an exchange leaves
behind. -/
structure Exchanges (i : Instr) (pre : State → State) (frame : State → Word)
    (complete : Word → State → State) : Prop where
  exec : ∀ s, exec i s = exchange pre frame complete s
  isExchange : isExchange i = true
  pre_state : ∀ s, (pre s).state = s.state
  pre_unlinked : ∀ s, (pre s).unlinked = pre s.unlinked
  frame_unlinked : ∀ s, frame s.unlinked = frame s
  complete_unlinked : ∀ r s, (complete r s).unlinked = complete r s.unlinked

/-- A scripted block cycle runs the operation that STATE selects. -/
theorem step_clock {p : Pins} {rest : List Input} (hscript : s.script = .clock p :: rest)
    (honce : p.rxValid = false ∨ s.request ≠ .answered) (hd : decodeState s.state = .ok i) :
    step s = exec i { s with script := rest, pins := p, request := s.nextRequest p } := by
  rw [step_of_moves (State.moves_of_script hscript)]
  exact blockCycle_runs (s := { s with script := rest }) honce hd

theorem State.events_clock {p : Pins} {rest : List Input} (hscript : s.script = .clock p :: rest) :
    s.events = s.cycleEvents p := by
  simp only [State.events, State.moves_of_script hscript]

/-- The frames of a scripted block cycle of an exchange: TXW at the acceptance. -/
theorem Exchanges.frames_clock (hx : Exchanges i pre frame complete)
    (hd : decodeState s.state = .ok i) {p : Pins} {rest : List Input}
    (hscript : s.script = .clock p :: rest) (honce : s.completesTwice p = false) :
    frames s.events = if s.phase = .req ∧ p.txReady then [s.txw] else [] := by
  have he : exchangeState s.state = true := (isExchange_of_decodeState hd).symm.trans hx.isExchange
  rw [State.events_clock hscript, State.cycleEvents_exchange honce hd he]
  split
  · rfl
  · split
    · split <;> rfl
    · rfl

theorem State.completesTwice_quiet (s : State) : s.completesTwice Pins.quiet = false := rfl

/-- A quiet cycle of an offered or outstanding exchange changes nothing. -/
theorem Exchanges.step_quiet (hx : Exchanges i pre frame complete)
    (hd : decodeState s.state = .ok i) (hp : s.phase ≠ .issue) {rest : List Input}
    (hscript : s.script = .clock Pins.quiet :: rest) :
    step s = .next { s with script := rest, pins := Pins.quiet } := by
  rw [step_clock hscript (.inl rfl) hd, hx.exec, State.nextRequest_quiet]
  have hphase : s.phase = .req ∨ s.phase = .rsp := by
    cases h : s.phase with
    | issue => exact absurd h hp
    | req => exact .inl rfl
    | rsp => exact .inr rfl
  rcases hphase with h | h
  · exact exchange_offered (s := { s with script := rest, pins := Pins.quiet }) h rfl
  · exact exchange_pending (s := { s with script := rest, pins := Pins.quiet }) h rfl

/-- Quiet cycles of an offered or outstanding exchange change nothing, however many. -/
theorem Exchanges.runs_quiet (hx : Exchanges i pre frame complete)
    (hd : decodeState s.state = .ok i) (hp : s.phase ≠ .issue) {n : Nat} {rest : List Input}
    (hscript : s.script = quietCycles n ++ rest) :
    ∃ p, Runs s (quietCycles n) [] { s with script := rest, pins := p } := by
  induction n generalizing s with
  | zero =>
    have hrest : s.script = rest := hscript
    exact ⟨s.pins, by rw [← hrest]; exact Runs.nil s⟩
  | succ n ih =>
    have hstep := hx.step_quiet hd hp (rest := quietCycles n ++ rest) hscript
    have hnone := hx.frames_clock hd hscript s.completesTwice_quiet
    rw [if_neg (by simp [Pins.quiet])] at hnone
    obtain ⟨p, hrun⟩ := ih (s := { s with script := quietCycles n ++ rest, pins := Pins.quiet })
      hd hp rfl
    have hfirst := Runs.single (.clock Pins.quiet) hstep
    rw [hnone] at hfirst
    exact ⟨p, hfirst.append hrun⟩

/-- The acceptance of the offered frame sends it. -/
theorem Exchanges.runs_accept (hx : Exchanges i pre frame complete)
    (hd : decodeState s.state = .ok i) (hp : s.phase = .req) {rest : List Input}
    (hscript : s.script = .clock accept :: rest) :
    Runs s [.clock accept] [s.txw]
      { s with script := rest, pins := accept, request := .outstanding, phase := .rsp } := by
  have hstep := step_clock hscript (.inl rfl) hd
  have hrequest : s.nextRequest accept = .outstanding := by
    simp [State.nextRequest, State.txValid, hp, accept]
  rw [hx.exec, hrequest] at hstep
  have hsend := hx.frames_clock hd hscript rfl
  rw [if_pos ⟨hp, rfl⟩] at hsend
  rw [← hsend]
  exact Runs.single _ (hstep.trans (exchange_accepted (s := { s with
    script := rest, pins := accept, request := .outstanding }) hp rfl))

/-- The completion of the outstanding exchange runs the completion actions. -/
theorem Exchanges.runs_answer (hx : Exchanges i pre frame complete)
    (hd : decodeState s.state = .ok i) (hp : s.phase = .rsp) (hout : s.request = .outstanding)
    {w : Word} {rest : List Input} (hscript : s.script = .clock (answer w) :: rest) :
    Runs s [.clock (answer w)] []
      (complete w { s with
        script := rest, pins := answer w, request := .answered, phase := .issue }) := by
  have honce : s.request ≠ .answered := by rw [hout]; decide
  have hstep := step_clock hscript (.inr honce) hd
  have hrequest : s.nextRequest (answer w) = .answered := by
    simp [State.nextRequest, State.txValid, hp, hout, answer]
  rw [hx.exec, hrequest] at hstep
  have hsend := hx.frames_clock hd hscript (Bool.eq_false_iff.2 (State.completesTwice_ne (.inr honce)))
  rw [if_neg (by simp [hp])] at hsend
  rw [← hsend]
  exact Runs.single _ (hstep.trans (exchange_completed (s := { s with
    script := rest, pins := answer w, request := .answered }) hp rfl rfl))

/-- An outstanding exchange completes with its response, however long the transport takes. -/
theorem Exchanges.runs_outstanding (hx : Exchanges i pre frame complete)
    (hd : decodeState s.state = .ok i) (hp : s.phase = .rsp) (hout : s.request = .outstanding)
    {b : Nat} {w : Word} {rest : List Input}
    (hscript : s.script = quietCycles b ++ .clock (answer w) :: rest) :
    ∃ v, v.unlinked = { s with phase := .issue }.unlinked ∧
      Runs s (quietCycles b ++ [.clock (answer w)]) [] (complete w v) := by
  obtain ⟨p, hwait⟩ := hx.runs_quiet hd (by rw [hp]; decide) hscript
  have hanswer := hx.runs_answer (s := { s with script := .clock (answer w) :: rest, pins := p })
    hd hp hout rfl
  refine ⟨_, ?_, hwait.append hanswer⟩
  rfl

/-- An offered exchange sends the latched frame and completes with its response, however long the
transport takes. -/
theorem Exchanges.runs_offered (hx : Exchanges i pre frame complete)
    (hd : decodeState s.state = .ok i) (hp : s.phase = .req) {a b : Nat} {w : Word}
    {rest : List Input}
    (hscript : s.script =
      quietCycles a ++ .clock accept :: (quietCycles b ++ .clock (answer w) :: rest)) :
    ∃ v, v.unlinked = { s with phase := .issue }.unlinked ∧
      Runs s (quietCycles a ++ .clock accept :: (quietCycles b ++ [.clock (answer w)])) [s.txw]
        (complete w v) := by
  obtain ⟨p, hwait⟩ := hx.runs_quiet hd (by rw [hp]; decide) hscript
  have haccept := hx.runs_accept (s := { s with
    script := .clock accept :: (quietCycles b ++ .clock (answer w) :: rest), pins := p }) hd hp rfl
  obtain ⟨v, hv, hrest⟩ := hx.runs_outstanding (s := { s with
    script := quietCycles b ++ .clock (answer w) :: rest, pins := accept, request := .outstanding
    phase := .rsp }) hd rfl rfl rfl
  exact ⟨v, hv, hwait.append (haccept.append hrest)⟩

/-- The ISSUE cycle latches the frame. -/
theorem Exchanges.runs_issue (hx : Exchanges i pre frame complete)
    (hd : decodeState s.state = .ok i) (hp : s.phase = .issue) {rest : List Input}
    (hscript : s.script = .clock Pins.quiet :: rest) :
    ∃ v : State, v.unlinked = s.unlinked ∧ Runs s [.clock Pins.quiet] [] (v.issueFrame pre frame) := by
  have hstep := step_clock hscript (.inl rfl) hd
  rw [hx.exec, State.nextRequest_quiet] at hstep
  have hnone := hx.frames_clock hd hscript s.completesTwice_quiet
  rw [if_neg (by simp [hp])] at hnone
  refine ⟨{ s with script := rest, pins := Pins.quiet }, rfl, ?_⟩
  rw [← hnone]
  exact Runs.single _ (hstep.trans (exchange_issue (s := { s with
    script := rest, pins := Pins.quiet }) hp))

/-- One exchange, whatever the link holds before it, and whatever response and waits the transport
gives. -/
theorem Exchanges.reaches (hx : Exchanges i pre frame complete) (hd : decodeState s.state = .ok i)
    (hp : s.phase = .issue) (r : Reply) :
    Reaches s r.cycles [frame (pre s)] (complete r.word { pre s with phase := .issue }) := by
  have hcycles (rest : List Input) : r.cycles ++ rest = .clock Pins.quiet ::
      (quietCycles r.waitAccept ++ .clock accept ::
        (quietCycles r.waitAnswer ++ .clock (answer r.word) :: rest)) := by
    simp [Reply.cycles, quietCycles]
  intro v rest hv hscript
  rw [hcycles] at hscript
  have hstate : v.state = s.state := by simpa using congrArg State.state hv
  have hphase : v.phase = s.phase := by simpa using congrArg State.phase hv
  obtain ⟨x, hlink, hissue⟩ := hx.runs_issue (by rw [hstate, hd]) (hphase.trans hp) hscript
  have hpre : (pre x).unlinked = (pre s).unlinked := by
    rw [hx.pre_unlinked, hx.pre_unlinked, hlink, hv]
  have hissued : (pre x).state = s.state := by
    simpa [hx.pre_state] using congrArg State.state hpre
  have hframe : frame (pre x) = frame (pre s) := by
    rw [← hx.frame_unlinked, hpre, hx.frame_unlinked]
  obtain ⟨y, hlink', hrun⟩ := hx.runs_offered (s := x.issueFrame pre frame)
    (by rw [State.issueFrame_state, hissued, hd]) rfl (hissue.script hscript)
  refine ⟨complete r.word y, ?_, ?_⟩
  · have hall := hissue.append hrun
    rw [State.issueFrame_txw, hframe] at hall
    rw [← List.append_nil r.cycles, hcycles]
    exact hall
  · rw [hx.complete_unlinked, hx.complete_unlinked, hlink']
    exact congrArg (fun z => complete r.word { z with phase := .issue }) hpre

end OneExchange
section Operations

variable {s t : State}

/-! ## The fourteen exchanges of a session (30_encoding.md rule R85) -/

theorem exchanges_hsPoll :
    Exchanges .hsPoll id (cmdFrame 0x6202#16) (State.pollDone hsReady 2#5) :=
  ⟨fun _ => rfl, rfl, fun _ => rfl, fun _ => rfl, fun _ => rfl, fun _ _ => rfl⟩

theorem exchanges_bootreq :
    Exchanges .bootreq id (cmdFrame 0x6102#16) (fun _ s => { s with cursor := 0#32, state := 4#5 }) :=
  ⟨fun _ => rfl, rfl, fun _ => rfl, fun _ => rfl, fun _ => rfl, fun _ _ => rfl⟩

theorem exchanges_hdr : Exchanges .hdr id (fun s => s.hdrFrame s.cursor) State.hdrDone :=
  ⟨fun _ => rfl, rfl, fun _ => rfl, fun _ => rfl, fun _ => rfl, fun _ _ => rfl⟩

theorem exchanges_hdrEnd : Exchanges .hdrEnd id (cmdFrame 0x6200#16) (State.goto 6#5) :=
  ⟨fun _ => rfl, rfl, fun _ => rfl, fun _ => rfl, fun _ => rfl, fun _ _ => rfl⟩

theorem exchanges_keySync : Exchanges .keySync id (cmdFrame 0x6202#16) (State.goto 7#5) :=
  ⟨fun _ => rfl, rfl, fun _ => rfl, fun _ => rfl, fun _ => rfl, fun _ _ => rfl⟩

theorem exchanges_keyReq1 : Exchanges .keyReq1 id (cmdFrame 0x63D1#16) (State.goto 8#5) :=
  ⟨fun _ => rfl, rfl, fun _ => rfl, fun _ => rfl, fun _ => rfl, fun _ _ => rfl⟩

theorem exchanges_keyReq2 : Exchanges .keyReq2 id (cmdFrame 0x63D1#16) State.tokenDone :=
  ⟨fun _ => rfl, rfl, fun _ => rfl, fun _ => rfl, fun _ => rfl, fun _ _ => by
    unfold State.tokenDone; split <;> rfl⟩

theorem exchanges_keyAck : Exchanges .keyAck id (fun s => keyAckFrame s.crca)
    (fun _ s => { s with padlen := padLen s.len, state := 10#5 }) :=
  ⟨fun _ => rfl, rfl, fun _ => rfl, fun _ => rfl, fun _ => rfl, fun _ _ => rfl⟩

theorem exchanges_len :
    Exchanges .len id (fun s => lenWord s.cfg.lenWordMode s.padlen) State.lenDone :=
  ⟨fun _ => rfl, rfl, fun _ => rfl, fun _ => rfl, fun _ => rfl, fun _ _ => rfl⟩

theorem exchanges_pay : Exchanges .pay State.payPre State.payFrame State.payDone :=
  ⟨fun _ => rfl, rfl, fun _ => rfl, fun _ => rfl, fun _ => rfl, fun _ s => by
    have hecho : s.unlinked.cursorLow = s.cursorLow := rfl
    simp only [State.payDone, hecho]
    split <;> rfl⟩

theorem exchanges_finStart : Exchanges .finStart id (cmdFrame 0x0065#16) (State.goto 14#5) :=
  ⟨fun _ => rfl, rfl, fun _ => rfl, fun _ => rfl, fun _ => rfl, fun _ _ => rfl⟩

theorem exchanges_finPoll :
    Exchanges .finPoll id (cmdFrame 0x0065#16) (State.pollDone finReady 15#5) :=
  ⟨fun _ => rfl, rfl, fun _ => rfl, fun _ => rfl, fun _ => rfl, fun _ _ => rfl⟩

theorem exchanges_finReq : Exchanges .finReq id (cmdFrame 0x0066#16) (State.goto 17#5) :=
  ⟨fun _ => rfl, rfl, fun _ => rfl, fun _ => rfl, fun _ => rfl, fun _ _ => rfl⟩

theorem exchanges_finCrc : Exchanges .finCrc id (fun s => crcFrame s.crc) State.crcDone :=
  ⟨fun _ => rfl, rfl, fun _ => rfl, fun _ => rfl, fun _ => rfl, fun _ _ => rfl⟩

/-! ## The cycles between the exchanges (41 rule R131, 43 rule R152, 44 rule R162) -/

/-- The other states send nothing. -/
theorem State.frames_cycleEvents_internal {p : Pins} {i : Instr}
    (hd : decodeState s.state = .ok i) (hi : isExchange i = false) :
    frames (s.cycleEvents p) = [] := by
  simp only [State.cycleEvents, hd, hi]
  split; · rfl
  split; · contradiction
  split; · rfl
  split <;> rfl

/-- A quiet cycle of an operation that sends nothing. -/
theorem reaches_internal {i : Instr} {f : State → State} (hd : decodeState s.state = .ok i)
    (hi : isExchange i = false) (hexec : ∀ v, exec i v = .next (f v))
    (hf : ∀ v, (f v).unlinked = f v.unlinked) : Reaches s (quietCycles 1) [] (f s) := by
  intro v rest hv hscript
  have hstate : v.state = s.state := by simpa using congrArg State.state hv
  rw [← hstate] at hd
  have hstep := step_clock hscript (.inl rfl) hd
  rw [hexec] at hstep
  have hrun := Runs.single (.clock Pins.quiet) hstep
  rw [State.events_clock hscript, State.frames_cycleEvents_internal hd hi] at hrun
  refine ⟨_, hrun, ?_⟩
  rw [hf, hf, ← hv]
  rfl

theorem quietCycles_succ (n : Nat) : quietCycles (n + 1) = quietCycles 1 ++ quietCycles n := rfl

theorem State.waitStep_unlinked (ready again : BitVec 5) (s : State) :
    (s.waitStep ready again).unlinked = s.unlinked.waitStep ready again := by
  by_cases h : s.delay = 0#32
  · rw [State.waitStep_leaves _ _ h, State.waitStep_leaves (s := s.unlinked) _ _ h]; rfl
  · rw [State.waitStep_counts _ _ h, State.waitStep_counts (s := s.unlinked) _ _ h]; rfl

/-- A wait state lasts DELAY quiet cycles and one more, and leaves by POLLHIT. -/
theorem reaches_wait {i : Instr} {ready again : BitVec 5} (hi : isExchange i = false)
    (hexec : ∀ v, exec i v = .next (v.waitStep ready again)) {n : Nat} (s : State)
    (hd : decodeState s.state = .ok i) (hn : s.delay.toNat = n) :
    Reaches s (quietCycles (n + 1)) []
      { s with delay := 0#32, state := if s.pollhit then ready else again } := by
  have hcycle (v : State) (hv : decodeState v.state = .ok i) :=
    reaches_internal hv hi hexec (State.waitStep_unlinked ready again)
  induction n generalizing s with
  | zero =>
    have hzero : s.delay = 0#32 := BitVec.eq_of_toNat_eq hn
    have hleave := hcycle s hd
    rw [State.waitStep_leaves _ _ hzero] at hleave
    rw [← hzero]
    exact hleave
  | succ n ih =>
    have hcount : s.delay ≠ 0#32 := fun h => by rw [h] at hn; cases hn
    have hfirst := hcycle s hd
    rw [State.waitStep_counts _ _ hcount] at hfirst
    rw [quietCycles_succ]
    exact hfirst.append (ih { s with delay := s.delay - 1#32 } hd (by bv_omega))

end Operations

section Polls

variable {s t : State} {poll wait : Instr} {c w next : BitVec 5} {k : Half} {ready : Word → Bool}

/-! ## The poll loops (41_handshake_header.md rules R130 and R131, 44_finalization.md rules R161 and
R162) -/

/-- A poll in the code `c` that sends `k` and goes to its wait in the code `w`, and from there on to
`next` once it was answered ready. -/
structure PollLoop (poll wait : Instr) (c w next : BitVec 5) (k : Half) (ready : Word → Bool) :
    Prop where
  exchanges : Exchanges poll id (cmdFrame k) (State.pollDone ready w)
  exec_wait : ∀ s, exec wait s = .next (s.waitStep next c)
  isExchange_wait : isExchange wait = false
  decode_poll : decodeState c = .ok poll
  decode_wait : decodeState w = .ok wait

theorem pollLoop_handshake : PollLoop .hsPoll .hsWait 1#5 2#5 3#5 0x6202#16 hsReady :=
  ⟨exchanges_hsPoll, fun _ => rfl, rfl, rfl, rfl⟩

theorem pollLoop_finalization : PollLoop .finPoll .finWait 14#5 15#5 16#5 0x0065#16 finReady :=
  ⟨exchanges_finPoll, fun _ => rfl, rfl, rfl, rfl⟩

/-- One poll and its delay. -/
theorem PollLoop.round (hl : PollLoop poll wait c w next k ready) (hs : s.state = c)
    (hp : s.phase = .issue) (r : Reply) :
    Reaches s (r.cycles ++ quietCycles ((delayTicks s.cfg).toNat + 1)) [k.setWidth 32]
      { s with
        phase := .issue, pollhit := ready r.word, delay := 0#32
        state := if ready r.word then next else c } := by
  have hpoll := hl.exchanges.reaches (by rw [hs]; exact hl.decode_poll) hp r
  have hwait := reaches_wait hl.isExchange_wait hl.exec_wait
    (State.pollDone ready w r.word { s with phase := .issue }) hl.decode_wait rfl
  exact hpoll.append hwait

/-- The poll loop: polls that are not ready, and one that is. -/
theorem PollLoop.reaches (hl : PollLoop poll wait c w next k ready) {rs : List Reply} {r : Reply}
    (hnot : ∀ r ∈ rs, ready r.word = false) (hready : ready r.word = true) (s : State)
    (hs : s.state = c) (hp : s.phase = .issue) :
    Reaches s (pollCycles (delayTicks s.cfg).toNat (rs ++ [r]))
      (List.replicate (rs.length + 1) (k.setWidth 32))
      { s with phase := .issue, pollhit := true, delay := 0#32, state := next } := by
  induction rs generalizing s with
  | nil =>
    have hlast := hl.round hs hp r
    rw [hready, if_pos rfl] at hlast
    simpa [pollCycles] using hlast
  | cons r' rs ih =>
    have hfirst := hl.round hs hp r'
    rw [hnot r' List.mem_cons_self, if_neg (by decide)] at hfirst
    exact hfirst.append (ih (fun q hq => hnot q (List.mem_cons_of_mem _ hq)) _ rfl rfl)

end Polls

section Loops

variable {s t : State}

/-! ## The header and the payload loop (41_handshake_header.md rule R133, 43_payload.md rule R150) -/

/-- `s` before header frame `n`, or in HDR_END after the last. -/
def State.headerAt (s : State) (n : Nat) : State :=
  { s with
    phase := .issue, cursor := BitVec.ofNat 32 (2 * n), state := if n = 96 then 5#5 else 4#5 }

theorem State.hdrFrame_headerAt (s : State) (n : Nat) :
    (s.headerAt n).hdrFrame (s.headerAt n).cursor = hdrFrameAt s n := by
  have hnext : BitVec.ofNat 32 (2 * n) + 1#32 = BitVec.ofNat 32 (2 * n + 1) := by
    rw [BitVec.ofNat_add]
  refine BitVec.eq_of_toNat_eq ?_
  rw [State.hdrFrame_toNat, hdrFrameAt, toNat_half_bytes, ← hnext, BitVec.toNat_zero, Nat.zero_mul,
    Nat.zero_add]
  rfl

theorem State.hdrDone_headerAt (s : State) {n : Nat} (h : n < 96) (r : Word) :
    State.hdrDone r (s.headerAt n) = s.headerAt (n + 1) := by
  have hcursor : BitVec.ofNat 32 (2 * n) + 2#32 = BitVec.ofNat 32 (2 * (n + 1)) := by
    rw [Nat.mul_add, BitVec.ofNat_add]
  have hend : BitVec.ofNat 32 (2 * (n + 1)) = 0xC0#32 ↔ n + 1 = 96 := by bv_omega
  simp only [State.hdrDone, State.headerAt, hcursor, hend]

/-- The header phase sends the 96 header frames. -/
theorem reaches_header {rs : List Reply} (hlen : rs.length = 96) (s : State) :
    Reaches (s.headerAt 0) (cyclesOf rs) ((List.range 96).map (hdrFrameAt s)) (s.headerAt 96) := by
  rw [← hlen]
  refine Reaches.loop fun n hn => ?_
  rw [hlen] at hn
  have hround := exchanges_hdr.reaches (s := s.headerAt n)
    (by rw [State.headerAt, if_neg (Nat.ne_of_lt hn)]; rfl) rfl rs[n]
  rw [← State.hdrFrame_headerAt, ← State.hdrDone_headerAt s hn]
  exact hround

/-- One bit-step with the feedback as the source computes it (40_datapath_units.md rule R105). -/
theorem crcStep_getLsbD (c : Half) (w : Word) (n : Nat) :
    crcStep c (w.getLsbD n) =
      if (c.toNat ^^^ (w.toNat >>> n)) % 2 = 1 then (c >>> 1) ^^^ 0xC37B#16 else c >>> 1 := by
  have hfeedback : (c ^^^ (BitVec.ofBool (w.getLsbD n)).setWidth 16).getLsbD 0 =
      decide ((c.toNat ^^^ (w.toNat >>> n)) % 2 = 1) := by
    rw [← Nat.testBit_zero, Nat.testBit_xor, Nat.testBit_shiftRight, BitVec.getLsbD_xor,
      BitVec.getLsbD_setWidth, BitVec.getLsbD_ofBool]
    simp only [Nat.zero_lt_succ, decide_true, Bool.true_and, Nat.add_zero]
    rfl
  simp only [crcStep, hfeedback, decide_eq_true_eq]
  split
  · rfl
  · exact BitVec.xor_zero

/-- The CRC of a word is the source's bit loop (40_datapath_units.md rule R106). -/
theorem crcWord_eq_crcLoop (c : Half) (w : Word) : crcWord c w = crcLoop c w := by
  have hupto : ∀ n, crcAfter c w n = (List.range n).foldl (fun (c : Half) n =>
      if (c.toNat ^^^ (w.toNat >>> n)) % 2 = 1 then (c >>> 1) ^^^ 0xC37B#16 else c >>> 1) c := by
    intro n
    induction n with
    | zero => rfl
    | succ n ih =>
      rw [List.range_succ, List.foldl_append, ← ih]
      exact crcStep_getLsbD _ w n
  exact hupto 32

/-- `s` before payload word `n`, or in FOLD after the last (R151). -/
def State.payloadAt (s : State) (n : Nat) : State :=
  { s with
    phase := .issue, cursor := payOffset n, seed := seedAfter s.seed n, crc := payCrc s s.crc n
    state := if payOffset n < s.padlen then 11#5 else 12#5 }

theorem payOffset_succ (n : Nat) : payOffset n + 4#32 = payOffset (n + 1) := by
  rw [payOffset, payOffset, Nat.mul_add, ← Nat.add_assoc, BitVec.ofNat_add (0xC0 + 4 * n)]

theorem State.payDone_payloadAt (s : State) (n : Nat) {r : Word}
    (hecho : r.extractLsb' 16 16 = (payOffset n).setWidth 16) :
    State.payDone r { (s.payloadAt n).payPre with phase := .issue } = s.payloadAt (n + 1) := by
  rw [State.payDone_accepted (s := { (s.payloadAt n).payPre with phase := .issue }) hecho]
  simp only [State.payPre, State.payloadAt, payOffset_succ, crcWord_eq_crcLoop]
  rfl

/-- The payload loop sends every payload word encrypted, when every offset is echoed. -/
theorem reaches_payload {rs : List Reply} (s : State)
    (hmore : ∀ n < rs.length, payOffset n < s.padlen)
    (hecho : ∀ n (h : n < rs.length),
      rs[n].word.extractLsb' 16 16 = (payOffset n).setWidth 16) :
    Reaches (s.payloadAt 0) (cyclesOf rs) ((List.range rs.length).map (payFrameAt s s.seed))
      (s.payloadAt rs.length) := by
  refine Reaches.loop fun n hn => ?_
  have hround := exchanges_pay.reaches (s := s.payloadAt n)
    (by rw [State.payloadAt, if_pos (hmore n hn)]; rfl) rfl rs[n]
  rw [State.payDone_payloadAt s n (hecho n hn)] at hround
  exact hround

end Loops

section Session

variable {s t : State} {p : Peer}

/-! ## The session (30_encoding.md rules R78 and R85)

`s` is the state in which HS_POLL begins; what it becomes at the end of each phase has a name. -/

/-- `s` at the end of the header phase. -/
def State.headerSent (s : State) : State :=
  { s with phase := .issue, pollhit := true, delay := 0#32, cursor := 0xC0#32, state := 5#5 }

/-- `s` at the payload loop, with what the key exchange with `p` gave (the loop sets STATE). -/
def State.keyed (p : Peer) (s : State) : State :=
  { s.headerSent with
    seed := p.seed, crca := p.crcAdj, padlen := padOf s, crcb := p.crcB, crc := 0xC387#16 }

/-- `s` at FOLD, with the payload sent to `p`. -/
def State.paid (p : Peer) (s : State) : State :=
  { s.keyed p with
    cursor := padOf s, seed := seedAfter p.seed (payWords s)
    crc := payCrc s 0xC387#16 (payWords s), state := 12#5 }

/-- `s` in DONE, after the session with `p`. -/
def State.ended (p : Peer) (s : State) : State :=
  { s.paid p with
    crc := p.finalCrc s, peerCrc := rxHi p.finCrc.word
    crcMatch := rxHi p.finCrc.word == p.finalCrc s, state := 18#5 }

/-- The handshake and the header phase. -/
theorem reaches_handshake (hp : p.Cooperates s) (hs : s.state = 1#5) (hphase : s.phase = .issue) :
    Reaches s (pollCycles (delayTicks s.cfg).toNat (p.hsRetry ++ [p.hsReady]) ++ p.boot.cycles ++
        cyclesOf p.header)
      (List.replicate (p.hsRetry.length + 1) 0x00006202#32 ++ [0x00006102#32] ++
        (List.range 96).map (hdrFrameAt s))
      s.headerSent := by
  have hpolls := pollLoop_handshake.reaches
    (fun r hr => beq_eq_false_iff_ne.2 (hp.hsRetry r hr)) (beq_iff_eq.2 hp.hsReady) s hs hphase
  have hboot := hpolls.append (exchanges_bootreq.reaches rfl rfl p.boot)
  exact hboot.append (reaches_header hp.header
    { s with phase := .issue, pollhit := true, delay := 0#32, state := 3#5 })

theorem keyAckFrame_eq_append : ∀ a : Byte, keyAckFrame a = 0x0000#16 ++ 0x64#8 ++ a := by decide

theorem crcFrame_eq_append (c : Half) : crcFrame c = 0x0000#16 ++ c :=
  BitVec.setWidth_eq_append (by decide)

/-- The key exchange. -/
theorem reaches_keyExchange (hp : p.Cooperates s) :
    Reaches s.headerSent (p.headerEnd.cycles ++ p.keySync.cycles ++ p.keyReq.cycles ++
        p.token.cycles ++ p.ack.cycles ++ p.length.cycles)
      [0x00006200#32, 0x00006202#32, 0x000063D1#32, 0x000063D1#32,
        0x0000#16 ++ 0x64#8 ++ p.crcAdj, lenWord s.cfg.lenWordMode (padOf s)]
      ((s.keyed p).payloadAt 0) := by
  have hmarkers := ((exchanges_hdrEnd.reaches (s := s.headerSent) rfl rfl p.headerEnd).append
    (exchanges_keySync.reaches rfl rfl p.keySync)).append
    (exchanges_keyReq1.reaches rfl rfl p.keyReq)
  have htoken := hmarkers.append (exchanges_keyReq2.reaches rfl rfl p.token)
  rw [State.tokenDone_accepted hp.token, seedInit_eq_append] at htoken
  have hack := htoken.append (exchanges_keyAck.reaches rfl rfl p.ack)
  rw [keyAckFrame_eq_append] at hack
  exact hack.append (exchanges_len.reaches rfl rfl p.length)

/-- The CRC of the payload depends on the state by the payload words only. -/
theorem payCrc_congr (h : ∀ off, t.payWord off = s.payWord off) (c : Half) (n : Nat) :
    payCrc t c n = payCrc s c n := by
  induction n with
  | zero => rfl
  | succ n ih => rw [payCrc, payCrc, ih, h]

/-- The payload words end exactly at the padded length (R151). -/
theorem payOffset_payWords (h : LenInRange s) : payOffset (payWords s) = padOf s := by
  obtain ⟨h16, hlo, hhi⟩ := padOf_bounds h
  refine BitVec.eq_of_toNat_eq ?_
  rw [payOffset, payWords, BitVec.toNat_ofNat]
  omega

theorem payOffset_lt_padOf (h : LenInRange s) {n : Nat} (hn : n < payWords s) :
    payOffset n < padOf s := by
  obtain ⟨h16, hlo, hhi⟩ := padOf_bounds h
  rw [payWords] at hn
  rw [BitVec.lt_def, payOffset, BitVec.toNat_ofNat]
  omega

/-- After the last payload word the loop has left for FOLD. -/
theorem State.payloadAt_payWords (h : LenInRange s) (p : Peer) :
    (s.keyed p).payloadAt (payWords s) = s.paid p := by
  have hcrc : payCrc (s.keyed p) 0xC387#16 (payWords s) = payCrc s 0xC387#16 (payWords s) :=
    payCrc_congr (s := s) (t := s.keyed p) (fun _ => rfl) _ _
  have hend : (if payOffset (payWords s) < (s.keyed p).padlen then 11#5 else 12#5) = 12#5 :=
    if_neg (by rw [payOffset_payWords h]; exact BitVec.lt_irrefl _)
  rw [State.payloadAt, hend, payOffset_payWords h, State.paid, ← hcrc]
  rfl

/-- The payload phase. -/
theorem reaches_paid (hp : p.Cooperates s) (h : LenInRange s) :
    Reaches ((s.keyed p).payloadAt 0) (cyclesOf p.payload)
      ((List.range (payWords s)).map (payFrameAt s p.seed)) (s.paid p) := by
  rw [← State.payloadAt_payWords h, ← hp.payload]
  exact reaches_payload (s.keyed p) (fun n hn => payOffset_lt_padOf h (hp.payload ▸ hn)) hp.echo

/-- FOLD, the finalization and the exchange of the CRC. -/
theorem reaches_finalization (hp : p.Cooperates s) :
    Reaches (s.paid p) (quietCycles 1 ++ p.finStart.cycles ++
        pollCycles (delayTicks s.cfg).toNat (p.finRetry ++ [p.finReady]) ++ p.finReq.cycles ++
        p.finCrc.cycles)
      ([0x00000065#32] ++ List.replicate (p.finRetry.length + 1) 0x00000065#32 ++ [0x00000066#32] ++
        [0x0000#16 ++ p.finalCrc s])
      (s.ended p) := by
  have hfold := reaches_internal (s := s.paid p) (i := .fold)
    (f := fun v => { v with crc := crcWord v.crc (foldWord v.crca v.crcb), state := 13#5 })
    rfl rfl (fun _ => rfl) (fun _ => rfl)
  have hfinal : crcLoop (s.paid p).crc (0xFFFF#16 ++ (s.paid p).crcb ++ (s.paid p).crca) =
      p.finalCrc s := rfl
  rw [crcWord_eq_crcLoop, foldWord_eq_append, hfinal] at hfold
  have hstart := hfold.append (exchanges_finStart.reaches rfl rfl p.finStart)
  have hpolls := hstart.append (pollLoop_finalization.reaches
    (fun r hr => beq_eq_false_iff_ne.2 (hp.finRetry r hr)) (beq_iff_eq.2 hp.finReady) _ rfl rfl)
  have hreq := hpolls.append (exchanges_finReq.reaches rfl rfl p.finReq)
  have hcrc := hreq.append (exchanges_finCrc.reaches rfl rfl p.finCrc)
  rw [crcFrame_eq_append] at hcrc
  exact hcrc

/-- The moves after START, phase by phase. -/
theorem script_tail_of_phases (p : Peer) (d : Nat) :
    (p.script d).tail =
      (pollCycles d (p.hsRetry ++ [p.hsReady]) ++ p.boot.cycles ++ cyclesOf p.header) ++
      (p.headerEnd.cycles ++ p.keySync.cycles ++ p.keyReq.cycles ++ p.token.cycles ++
        p.ack.cycles ++ p.length.cycles) ++ cyclesOf p.payload ++
      (quietCycles 1 ++ p.finStart.cycles ++ pollCycles d (p.finRetry ++ [p.finReady]) ++
        p.finReq.cycles ++ p.finCrc.cycles) := by
  simp [Peer.script, cyclesOf]

/-- The whole session after START. -/
theorem reaches_session (hp : p.Cooperates s) (h : LenInRange s) (hs : s.state = 1#5)
    (hphase : s.phase = .issue) :
    Reaches s (p.script (delayTicks s.cfg).toNat).tail (p.frames s) (s.ended p) := by
  have hall := (((reaches_handshake hp hs hphase).append (reaches_keyExchange hp)).append
    (reaches_paid hp h)).append (reaches_finalization hp)
  have hfinal (n : Nat) (x : Word) :
      List.replicate (n + 2) x = [x] ++ List.replicate (n + 1) x := rfl
  rw [script_tail_of_phases, Peer.frames, hfinal]
  simpa only [List.append_assoc, List.cons_append, List.nil_append] using hall

theorem State.frames_accessEvents (a : Access) (s : State) : frames (s.accessEvents a) = [] := by
  unfold State.accessEvents
  split; · rfl
  split <;> rfl

/-- `s` as an accepted START leaves it, with the moves `rest` to come (R171). -/
def State.started (rest : List Input) (s : State) : State :=
  { ({ s with script := rest } : State).clearSession with state := 1#5 }

/-- A START outside a session, with LEN in range and no exchange to be drained, begins a session and
sends nothing. -/
theorem runs_start {v : Word} {rest : List Input} (hb : s.busy = false) (hcut : s.cut = false)
    (hlen : LenInRange s) (hv : v.getLsbD 0 = true)
    (hscript : s.script = .host ⟨true, 4, 0#32, v⟩ :: rest) :
    Runs s [.host ⟨true, 4, 0#32, v⟩] [] (s.started rest) := by
  have hmoves := State.moves_of_script hscript
  have hduty : s.breaksDrainDuty ⟨true, 4, 0#32, v⟩ ≠ true := fun h => by
    obtain ⟨hcut', -⟩ := breaksDrainDuty_iff.1 h
    exact Bool.false_ne_true (hcut.symm.trans hcut')
  have hstep := step_host_runs hmoves (decodeAccess_start v hv) hduty
  have hbusy : ({ s with script := rest } : State).busy ≠ true := by
    rw [show ({ s with script := rest } : State).busy = false from hb]; decide
  have hok : preconditionOK ({ s with script := rest } : State).len = true :=
    (preconditionOK_iff _).2 hlen
  rw [exec, execStart, if_neg hbusy, if_pos hok] at hstep
  have hrun := Runs.single (.host ⟨true, 4, 0#32, v⟩) hstep
  have hevents : s.events = s.accessEvents ⟨true, 4, 0#32, v⟩ := by
    simp only [State.events, hmoves]
  rwa [hevents, State.frames_accessEvents] at hrun

/-- START leaves the peer's session as it was, the image and LEN being the same. -/
theorem finalCrc_started (p : Peer) (rest : List Input) (s : State) :
    p.finalCrc (s.started rest) = p.finalCrc s :=
  congrArg (crcLoop · _) (payCrc_congr (s := s) (t := s.started rest) (fun _ => rfl) _ _)

theorem frames_started (p : Peer) (rest : List Input) (s : State) :
    p.frames (s.started rest) = p.frames s := by
  rw [Peer.frames, finalCrc_started]
  rfl

theorem cooperates_started (hp : p.Cooperates s) (rest : List Input) :
    p.Cooperates (s.started rest) :=
  ⟨hp.hsRetry, hp.hsReady, hp.header, hp.token, hp.payload, hp.echo, hp.finRetry, hp.finReady⟩

/-- Settles O60: START, and then phase by phase to DONE. -/
theorem sessionSendsTheFrameSequence : Obligations.SessionSendsTheFrameSequence := by
  intro s p rest hb hcut hlo hhi hp hscript
  have hstart := runs_start hb hcut ⟨hlo, hhi⟩ rfl hscript
  have hp' := cooperates_started hp ((p.script (delayTicks s.cfg).toNat).tail ++ rest)
  obtain ⟨t, hrun, hend⟩ := reaches_session hp' ⟨hlo, hhi⟩ rfl rfl _ rest rfl rfl
  have hall := hstart.append hrun
  have hrest := hall.script (rest := rest) hscript
  obtain ⟨hsteps, hframes⟩ := hall
  rw [frames_started] at hframes
  have hcrc : t.crc = p.finalCrc s :=
    (congrArg State.crc hend :).trans (finalCrc_started p _ s)
  have hpeer : t.peerCrc = rxHi p.finCrc.word := (congrArg State.peerCrc hend :)
  have hmatch : t.crcMatch = (t.peerCrc == t.crc) := by
    rw [hcrc, hpeer, ← finalCrc_started p _ s]
    exact (congrArg State.crcMatch hend :)
  exact ⟨t, hsteps, (congrArg State.state hend :), hrest, (congrArg State.image hend :),
    (congrArg State.len hend :), (congrArg State.padlen hend :), (congrArg State.cursor hend :),
    (congrArg State.seed hend :), hcrc, (congrArg State.crca hend :), (congrArg State.crcb hend :),
    hpeer, hmatch, (congrArg State.errcode hend :), hframes⟩

end Session
end Sys2Proof.Machine

/-! SUPPORT. Proofs of the statements about the datapath units (40_datapath_units.md): the formulas of R100,
R104 and R112 to R117, the CRC (R105 to R107), the encryption (R108, R109), the lengths (R110, R111) and the
exchange in full (R118, R119). -/

namespace Sys2Proof.Machine

open Sys2Proof.Safety

section Formulas

/-! ## The units that are one formula each -/

/-- A field is the quotient by the bits below it, cut to its width. -/
theorem toNat_extractLsb'_eq_div_mod (r : Word) (lo n : Nat) :
    (r.extractLsb' lo n).toNat = r.toNat / 2 ^ lo % 2 ^ n := by
  rw [BitVec.extractLsb'_toNat, Nat.shiftRight_eq_div_pow]

theorem rxHi_toNat (r : Word) : (rxHi r).toNat = r.toNat / 2 ^ 16 := by
  rw [rxHi, toNat_extractLsb'_eq_div_mod]
  omega

theorem rxTag_toNat (r : Word) : (rxTag r).toNat = r.toNat / 2 ^ 24 := by
  rw [rxTag, toNat_extractLsb'_eq_div_mod]
  omega

theorem rxParam_toNat (r : Word) : (rxParam r).toNat = r.toNat / 2 ^ 16 % 256 :=
  toNat_extractLsb'_eq_div_mod r 16 8

/-- Cutting the product before the add changes nothing (R104). -/
theorem lcgStep_toNat (s : Word) : (lcgStep s).toNat = (0x6F646573 * s.toNat + 1) % 2 ^ 32 := by
  rw [lcgStep, BitVec.toNat_add, BitVec.toNat_mul, BitVec.toNat_ofNat, BitVec.toNat_ofNat,
    Nat.mod_add_mod]

/-- Settles O15, unit by unit. -/
theorem datapathFormulas : Obligations.DatapathFormulas :=
  ⟨fun r => ⟨rxHi_toNat r, rxTag_toNat r, rxParam_toNat r⟩, lcgStep_toNat, seedInit_eq_append,
    fun a => BitVec.toNat_add a 0x0F#8, keyAckFrame_eq_append, foldWord_eq_append,
    crcFrame_eq_append⟩

end Formulas

section Crc

/-! ## The CRC engine (R105 to R107) -/

/-- Settles O17: the loop is unrolled by induction, and the words 1 and 0 show that the order matters. -/
theorem crcWordIsTheBitLoop : Obligations.CrcWordIsTheBitLoop := by
  refine ⟨crcWord_eq_crcLoop, 0#16, 1#32, 0#32, ?_⟩
  have hone : crcWord 0#16 1#32 = 0xB113#16 := by decide
  have hzero : crcWord 0#16 0#32 = 0#16 := by decide
  have honezero : crcWord 0xB113#16 0#32 = 0x1B81#16 := by decide
  rw [hzero, hone, honezero]
  decide

/-- An input bit that meets its own value in the accumulator feeds nothing back: a part `d` of the
accumulator whose low bit is the input is shifted along beside the zero-input step of the rest. -/
theorem crcStep_xor (b d : Half) :
    crcStep (b ^^^ d) (d.getLsbD 0) = crcStep b false ^^^ (d >>> 1) := by
  have hfeedback : (b ^^^ d ^^^ (BitVec.ofBool (d.getLsbD 0)).setWidth 16).getLsbD 0 =
      (b ^^^ (BitVec.ofBool false).setWidth 16).getLsbD 0 := by
    simp
  simp only [crcStep, hfeedback, BitVec.ushiftRight_xor_distrib]
  rw [BitVec.xor_assoc, BitVec.xor_assoc, BitVec.xor_comm (d >>> 1)]

/-- The table index of a byte step: the accumulator's low byte against the input byte. -/
def crcIndex (c : Half) (x : Byte) : Half := (c.setWidth 8 ^^^ x).setWidth 16

theorem crcIndex_getLsbD (c : Half) (x : Byte) (m : Nat) :
    (crcIndex c x).getLsbD m = (decide (m < 8) && (c.getLsbD m ^^ x.getLsbD m)) := by
  rw [crcIndex, BitVec.getLsbD_setWidth, BitVec.getLsbD_xor, BitVec.getLsbD_setWidth]
  by_cases h : m < 8
  · have h16 : m < 16 := by omega
    simp [h, h16]
  · have hx : x.getLsbD m = false := BitVec.getLsbD_of_ge x m (by omega)
    simp [h, hx]

/-- `m` steps inside the byte at bit `n`: zero-input steps of the table index `k`, with the rest of the
accumulator `d` shifted along. -/
theorem crcAfter_add_of_le_eight {c d k : Half} {w : Word} {n m : Nat} (hd : d = crcAfter c w n)
    (hk : k = crcIndex d (w.extractLsb' n 8)) (h : m ≤ 8) :
    crcAfter c w (n + m) = crcAfter k 0#32 m ^^^ ((d ^^^ k) >>> m) := by
  induction m with
  | zero =>
    rw [Nat.add_zero, ← hd, crcAfter, BitVec.ushiftRight_zero, BitVec.xor_comm, BitVec.xor_assoc,
      BitVec.xor_self, BitVec.xor_zero]
  | succ m ih =>
    have hbit : w.getLsbD (n + m) = ((d ^^^ k) >>> m).getLsbD 0 := by
      simp [hk, crcIndex_getLsbD, show m < 8 by omega]
    rw [← Nat.add_assoc, crcAfter, ih (by omega), hbit, crcStep_xor, crcAfter, BitVec.getLsbD_zero,
      BitVec.shiftRight_add]

/-- Eight steps are one table step (R107). -/
theorem crcAfter_add_eight (c : Half) (w : Word) (n : Nat) :
    crcAfter c w (n + 8) = crcByte (crcAfter c w n) (w.extractLsb' n 8) := by
  have hindex (c : Half) (x : Byte) : crcIndex c x >>> 8 = 0#16 :=
    BitVec.eq_of_getLsbD_eq fun k _ => by simp [crcIndex_getLsbD]
  rw [crcAfter_add_of_le_eight rfl rfl le_rfl, BitVec.ushiftRight_xor_distrib, hindex,
    BitVec.xor_zero, BitVec.xor_comm]
  rfl

/-- Settles O18, byte by byte. -/
theorem crcByTableEqualsBitSerial : Obligations.CrcByTableEqualsBitSerial := fun c w => by
  have hbytes : crcWord c w = crcAfter c w (0 + 8 + 8 + 8 + 8) := rfl
  rw [hbytes, crcAfter_add_eight, crcAfter_add_eight, crcAfter_add_eight, crcAfter_add_eight]
  rfl

end Crc

section Encryption

/-! ## The encryption (R108 and R109) -/

/-- Encryption combines the word with a key that does not depend on it. -/
theorem encrypt_eq_xor_key (s raw i : Word) : encrypt s raw i = raw ^^^ encrypt s 0#32 i := by
  simp only [encrypt, BitVec.xor_zero, ← BitVec.xor_assoc, BitVec.xor_comm s raw]

/-- Settles O19: the key meets itself. -/
theorem encryptIsItsOwnInverse : Obligations.EncryptIsItsOwnInverse := fun s raw i => by
  refine ⟨?_, rfl⟩
  rw [encrypt_eq_xor_key s (encrypt s raw i), encrypt_eq_xor_key s raw, BitVec.xor_assoc,
    BitVec.xor_self, BitVec.xor_zero]

end Encryption

section Lengths

/-! ## The padded length and the length word (R110 and R111) -/

theorem padLen_eq_and_not (l : Word) : padLen l = (l + 0xF#32) &&& ~~~0xF#32 := rfl

/-- The formula rounds `L + 15` down to a multiple of 16. -/
theorem padLen_toNat {l : Word} (h : l.toNat ≤ 0x40000) :
    (padLen l).toNat = (l.toNat + 15) / 16 * 16 := by
  have hsum : (l + 0xF#32).toNat = l.toNat + 15 := by bv_omega
  rw [padLen_eq_and_not, toNat_and_not_fifteen, hsum]

/-- Settles O20: `L + 15` rounded down is `L` rounded up. -/
theorem padLenRoundsUpToSixteen : Obligations.PadLenRoundsUpToSixteen := by
  refine ⟨padLen_eq_and_not, fun l hlo hhi => ?_⟩
  rw [padLen_toNat hhi]
  omega

/-- Signed division by 4 is the arithmetic shift of the difference. -/
theorem lenWord_signed (p : Word) : lenWord .signed p = (p - 0x190#32).sshiftRight 2 := by
  have htop : 0xC0000000#32 = BitVec.allOnes 32 <<< 30 := by decide
  have hmsb : (p - 0x190#32).getLsbD 31 = (p - 0x190#32).msb :=
    (BitVec.msb_eq_getLsbD_last _).symm
  rw [lenWord, hmsb]
  cases h : (p - 0x190#32).msb with
  | false => rw [BitVec.sshiftRight_eq_of_msb_false h, if_neg Bool.false_ne_true, BitVec.or_zero]
  | true =>
    rw [if_pos rfl, htop]
    ext k hk
    rw [BitVec.getElem_sshiftRight, BitVec.getElem_or, BitVec.getElem_shiftLeft,
      BitVec.getElem_ushiftRight, h]
    by_cases hlow : k < 30
    · have hin : 2 + k < 32 := by omega
      simp [hlow, hin]
    · have hout : ¬ 2 + k < 32 := by omega
      rw [BitVec.getElem_allOnes]
      simp [hlow, hout]

theorem lenWord_unsigned_toNat (p : Word) :
    (lenWord .unsigned p).toNat = (p - 0x190#32).toNat / 4 := by
  rw [lenWord, BitVec.toNat_ushiftRight, Nat.shiftRight_eq_div_pow]

/-- At 0x190 and above no mode sees a negative difference. -/
theorem lenWord_of_ge {p : Word} (hlo : 0x190 ≤ p.toNat) (hhi : p.toNat ≤ 0x40000)
    (m : LenWordMode) :
    lenWord m p = lenWord .unsigned p := by
  cases m with
  | unsigned => rfl
  | signed =>
    have hmsb : (p - 0x190#32).msb = false := BitVec.msb_eq_false_iff_two_mul_lt.2 (by bv_omega)
    rw [lenWord_signed, BitVec.sshiftRight_eq_of_msb_false hmsb, lenWord]

/-- Settles O21: the difference under each mode, which 4 divides. -/
theorem lenWordInBothModes : Obligations.LenWordInBothModes := by
  intro p h16 hhi
  refine ⟨fun hlo m => ?_, fun hlo => ?_, ?_⟩
  · have hdiff : (p - 0x190#32).toNat = p.toNat - 0x190 := by bv_omega
    rw [lenWord_of_ge hlo hhi, lenWord_unsigned_toNat, hdiff]
  · have hdiff : (p - 0x190#32).toNat = 2 ^ 32 + p.toNat - 0x190 := by bv_omega
    rw [lenWord_unsigned_toNat, hdiff]
  · have hdiff : (p - 0x190#32).toInt = (p.toNat : Int) - 0x190 := by
      rw [BitVec.toInt_eq_toNat_cond]
      bv_omega
    rw [lenWord_signed, BitVec.toInt_sshiftRight, hdiff, Int.shiftRight_eq_div_pow]
    omega

end Lengths

section WholeExchange

variable {s : State} {i : Instr} {pre : State → State} {frame : State → Word}
  {complete : Word → State → State}

/-! ## An exchange from ISSUE to its completion (R113, R118 and R119) -/

/-- The ISSUE action neither reads nor changes the agents' coming moves. -/
def IssueIgnoresScript (pre : State → State) (frame : State → Word) : Prop :=
  ∀ (s : State) (l : List Input),
    ({ s with script := l } : State).issueFrame pre frame =
      { s.issueFrame pre frame with script := l }

/-- Every exchange operation is the exchange of some actions. -/
theorem exists_exchanges (hi : isExchange i = true) : ∃ pre frame complete,
    Exchanges i pre frame complete ∧ IssueIgnoresScript pre frame := by
  cases i with
  | hsPoll => exact ⟨_, _, _, exchanges_hsPoll, fun _ _ => rfl⟩
  | bootreq => exact ⟨_, _, _, exchanges_bootreq, fun _ _ => rfl⟩
  | hdr => exact ⟨_, _, _, exchanges_hdr, fun _ _ => rfl⟩
  | hdrEnd => exact ⟨_, _, _, exchanges_hdrEnd, fun _ _ => rfl⟩
  | keySync => exact ⟨_, _, _, exchanges_keySync, fun _ _ => rfl⟩
  | keyReq1 => exact ⟨_, _, _, exchanges_keyReq1, fun _ _ => rfl⟩
  | keyReq2 => exact ⟨_, _, _, exchanges_keyReq2, fun _ _ => rfl⟩
  | keyAck => exact ⟨_, _, _, exchanges_keyAck, fun _ _ => rfl⟩
  | len => exact ⟨_, _, _, exchanges_len, fun _ _ => rfl⟩
  | pay => exact ⟨_, _, _, exchanges_pay, fun _ _ => rfl⟩
  | finStart => exact ⟨_, _, _, exchanges_finStart, fun _ _ => rfl⟩
  | finPoll => exact ⟨_, _, _, exchanges_finPoll, fun _ _ => rfl⟩
  | finReq => exact ⟨_, _, _, exchanges_finReq, fun _ _ => rfl⟩
  | finCrc => exact ⟨_, _, _, exchanges_finCrc, fun _ _ => rfl⟩
  | idle | hsWait | fold | finWait | done | error | start | lenWrite | regRead => cases hi

/-- The ISSUE cycle latches the frame and nothing around it moves but the script. -/
theorem Exchanges.runs_issueFrame (hx : Exchanges i pre frame complete)
    (hd : decodeState s.state = .ok i) (hp : s.phase = .issue) {rest : List Input}
    (hscript : s.script = .clock Pins.quiet :: rest) :
    Runs s [.clock Pins.quiet] []
      (({ s with script := rest, pins := Pins.quiet } : State).issueFrame pre frame) := by
  have hstep := step_clock hscript (.inl rfl) hd
  rw [hx.exec, State.nextRequest_quiet] at hstep
  have hnone := hx.frames_clock hd hscript s.completesTwice_quiet
  rw [if_neg (by simp [hp])] at hnone
  rw [← hnone]
  exact Runs.single _ (hstep.trans (exchange_issue hp))

/-- An offered frame is sent as it was latched, and the response meets the state that offered it. -/
theorem Exchanges.runs_to_completion (hx : Exchanges i pre frame complete)
    (hd : decodeState s.state = .ok i) (hp : s.phase = .req) {a b : Nat} {w : Word}
    {rest : List Input} (hscript : s.script =
      quietCycles a ++ .clock accept :: (quietCycles b ++ .clock (answer w) :: rest)) :
    Runs s (quietCycles a ++ .clock accept :: (quietCycles b ++ [.clock (answer w)])) [s.txw]
      (complete w { s with
        script := rest, pins := answer w, request := .answered, phase := .issue }) := by
  obtain ⟨p, hoffered⟩ := hx.runs_quiet hd (by rw [hp]; decide) hscript
  have haccept := hx.runs_accept (s := { s with
    script := .clock accept :: (quietCycles b ++ .clock (answer w) :: rest), pins := p }) hd hp rfl
  obtain ⟨q, hpending⟩ := hx.runs_quiet (s := { s with
    script := quietCycles b ++ .clock (answer w) :: rest, pins := accept, request := .outstanding
    phase := .rsp }) hd nofun rfl
  have hanswer := hx.runs_answer (s := { s with
    script := .clock (answer w) :: rest, pins := q, request := .outstanding, phase := .rsp })
    hd rfl rfl rfl
  exact hoffered.append (haccept.append (hpending.append hanswer))

/-- The cycles of one exchange, cut where the block changes phase. -/
theorem Reply.cycles_append (r : Reply) (rest : List Input) : r.cycles ++ rest =
    .clock Pins.quiet :: (quietCycles r.waitAccept ++ .clock accept ::
      (quietCycles r.waitAnswer ++ .clock (answer r.word) :: rest)) := by
  simp [Reply.cycles, quietCycles]

/-- Settles O56: the ISSUE cycle, and then the offered frame to its completion. -/
theorem exchangeRunsToItsCompletion : Obligations.ExchangeRunsToItsCompletion := by
  intro s i r rest he hd hp hscript
  obtain ⟨pre, frame, complete, hx, hignores⟩ :=
    exists_exchanges ((isExchange_of_decodeState hd).trans he)
  rw [Reply.cycles_append] at hscript
  have hissue := hx.runs_issueFrame hd hp hscript
  rw [hignores { s with pins := Pins.quiet }] at hissue
  have hrun := hissue.append (hx.runs_to_completion
    (by rw [State.issueFrame_state, hx.pre_state]; exact hd) rfl rfl)
  refine ⟨_, (hx.exec _).trans (exchange_issue hp), ?_⟩
  rw [hx.exec, exchange_completed rfl rfl rfl, hignores { s with pins := Pins.quiet },
    ← List.append_nil r.cycles, Reply.cycles_append]
  exact hrun

end WholeExchange

end Sys2Proof.Machine

/-! SUPPORT. Proofs of the handshake and header statements (41_handshake_header.md): the exchanges of
R130 and R132 to R134 in every phase, the waits of R131, the registers each operation leaves, and the
header phase as a whole (R133). -/

namespace Sys2Proof.Machine

open Sys2Proof.Safety

section PhaseByPhase

variable {i : Instr} {pre : State → State} {frame : State → Word}
  {complete : Word → State → State}

/-! ## The exchanges in every phase (R130, R132 to R134, R140, R141, R160, R161, R163) -/

/-- An exchange operation answers in every phase as its ISSUE action and its completion say (R118,
R119). -/
theorem Exchanges.exchangeStep (hx : Exchanges i pre frame complete) {issue : State → State}
    (hissue : ∀ s, { pre s with txw := frame (pre s) } = issue s) {done : Word → State → State}
    (hdone : ∀ r s, complete r s = done r s) : ExchangeStep i issue done := by
  intro s
  simp only [hx.exec, ← hissue, ← hdone]
  exact ⟨exchange_issue, exchange_accepted, exchange_offered, exchange_pending, exchange_failed,
    exchange_completed⟩

/-- The high half of a response, as a field and as a shift (R100). -/
theorem rxHi_beq_eq_shift_beq (r : Word) (k : Half) :
    (rxHi r == k) = (r >>> 16 == k.setWidth 32) := by
  rw [Bool.eq_iff_iff, beq_iff_eq, beq_iff_eq, ← BitVec.toNat_inj, ← BitVec.toNat_inj, rxHi_toNat,
    BitVec.toNat_ushiftRight, Nat.shiftRight_eq_div_pow, BitVec.toNat_setWidth_of_le (by decide)]

/-- Settles O23: the two polls, each with its test on the high half as a shift. -/
theorem pollsRecordReadiness : Obligations.PollsRecordReadiness := by
  refine ⟨exchanges_hsPoll.exchangeStep (fun _ => rfl) fun r s => ?_,
    exchanges_finPoll.exchangeStep (fun _ => rfl) fun r s => ?_⟩
  · rw [State.pollDone, hsReady, rxHi_beq_eq_shift_beq]; rfl
  · rw [State.pollDone, finReady, rxHi_beq_eq_shift_beq]; rfl

/-- Settles O24: the two cases of a wait step, and POLLHIT in the second. -/
theorem waitStatesCountDown : Obligations.WaitStatesCountDown := by
  intro s
  have hhs : exec .hsWait s = .next (s.waitStep 3#5 1#5) := rfl
  have hfin : exec .finWait s = .next (s.waitStep 16#5 14#5) := rfl
  rw [hhs, hfin]
  refine ⟨fun hcount => ?_, fun hzero hhit => ?_, fun hzero hhit => ?_⟩
  · simp [State.waitStep_counts _ _ hcount]
  · simp [State.waitStep_leaves _ _ hzero, hhit]
  · simp [State.waitStep_leaves _ _ hzero, hhit]

/-- Settles O25: BOOTREQ is the exchange of these actions. -/
theorem bootreqStartsTheHeader : Obligations.BootreqStartsTheHeader :=
  exchanges_bootreq.exchangeStep (fun _ => rfl) fun _ _ => rfl

/-- The header frame as its bytes (R72, R102). -/
theorem State.hdrFrame_eq_append (s : State) (off : Word) :
    s.hdrFrame off = 0x0000#16 ++ s.img (off + 1#32) ++ s.img off := by
  refine BitVec.eq_of_toNat_eq ?_
  rw [State.hdrFrame_toNat, toNat_half_bytes, BitVec.toNat_zero, Nat.zero_mul, Nat.zero_add]

/-- Settles O26: the frame as its bytes, and the last header pair at 0xBE. -/
theorem hdrSendsTwoBytes : Obligations.HdrSendsTwoBytes := by
  refine exchanges_hdr.exchangeStep (fun s => ?_) fun r s => ?_
  · rw [State.hdrFrame_eq_append]; rfl
  · have hend : s.cursor + 2#32 = 0xC0#32 ↔ s.cursor = 0xBE#32 := by bv_omega
    simp only [State.hdrDone, hend]

/-- Settles O27: each of the five is the exchange of a constant and a move. -/
theorem markerExchangesMoveOn : Obligations.MarkerExchangesMoveOn :=
  ⟨exchanges_hdrEnd.exchangeStep (fun _ => rfl) fun _ _ => rfl,
    exchanges_keySync.exchangeStep (fun _ => rfl) fun _ _ => rfl,
    exchanges_keyReq1.exchangeStep (fun _ => rfl) fun _ _ => rfl,
    exchanges_finStart.exchangeStep (fun _ => rfl) fun _ _ => rfl,
    exchanges_finReq.exchangeStep (fun _ => rfl) fun _ _ => rfl⟩

end PhaseByPhase

section Frames

variable {s t u : State} {l : List Reg}

/-! ## The registers an operation leaves (the "State written" lines of 41 to 45) -/

/-- From `s` to `t` no register outside `l` changes. -/
def Changes (l : List Reg) (s t : State) : Prop := ∀ r, r ∉ l → r.get t = r.get s

theorem Changes.refl (l : List Reg) (s : State) : Changes l s s := fun _ _ => rfl

theorem Changes.trans (h : Changes l s t) (h' : Changes l t u) : Changes l s u :=
  fun r hr => (h' r hr).trans (h r hr)

theorem Changes.mono {l' : List Reg} (h : Changes l s t) (hl : l ⊆ l') : Changes l' s t :=
  fun r hr => h r fun hmem => hr (hl hmem)

/-- The registers of every exchange, whatever they become. -/
theorem changes_exchangeRegs {w off info : Word} {p : Phase} {c es : BitVec 5} {code : BitVec 3} :
    Changes (exchangeRegs ++ l) s
      { s with
        txw := w, phase := p, state := c, errcode := code, errstate := es, errOffset := off
        errInfo := info } := by
  refine Changes.mono (l := exchangeRegs) (fun r hr => ?_) (List.subset_append_left _ _)
  cases r with
  | txw | phase | state | errcode | errstate | errOffset | errInfo => exact absurd (by decide) hr
  | _ => rfl

/-- An exchange changes its own registers and those its pre-actions and its completion change. -/
theorem exchange_changes {pre : State → State} {frame : State → Word}
    {complete : Word → State → State} (h : exchange pre frame complete s = .next t)
    (hpre : ∀ s, Changes l s (pre s))
    (hcomplete : ∀ r s, Changes (exchangeRegs ++ l) s (complete r s)) :
    Changes (exchangeRegs ++ l) s t := by
  rcases exchange_cases h with
    ⟨-, rfl⟩ | ⟨-, -, rfl⟩ | ⟨-, -, rfl⟩ | ⟨-, -, rfl⟩ | ⟨-, -, -, rfl⟩ | ⟨-, -, -, rfl⟩
  · exact ((hpre s).mono (List.subset_append_right _ _)).trans changes_exchangeRegs
  · exact changes_exchangeRegs
  · exact .refl _ _
  · exact .refl _ _
  · exact changes_exchangeRegs
  · exact (changes_exchangeRegs (s := s)).trans (hcomplete _ { s with phase := .issue })

theorem State.pollDone_changes (ready : Word → Bool) (wait : BitVec 5) (r : Word) (s : State) :
    Changes (exchangeRegs ++ [.pollhit, .delay]) s (State.pollDone ready wait r s) := by
  intro r hr
  cases r with
  | pollhit | delay | state => exact absurd (by decide) hr
  | _ => rfl

/-- A step of CURSOR with a move, as BOOTREQ, HDR and PAY make it. -/
theorem changes_cursor_state {x : Word} {c : BitVec 5} :
    Changes [.cursor, .state] s { s with cursor := x, state := c } := by
  intro r hr
  cases r with
  | cursor | state => exact absurd (by decide) hr
  | _ => rfl

theorem State.tokenDone_changes (r : Word) (s : State) :
    Changes (exchangeRegs ++ [.seed, .crca]) s (State.tokenDone r s) := by
  unfold State.tokenDone
  split
  · exact changes_exchangeRegs
  · intro r hr
    cases r with
    | seed | crca | state => exact absurd (by decide) hr
    | _ => rfl

theorem changes_padlen_state {x : Word} {c : BitVec 5} :
    Changes [.padlen, .state] s { s with padlen := x, state := c } := by
  intro r hr
  cases r with
  | padlen | state => exact absurd (by decide) hr
  | _ => rfl

theorem State.lenDone_changes (r : Word) (s : State) :
    Changes (exchangeRegs ++ [.crcb, .crc]) s (State.lenDone r s) := by
  intro r hr
  cases r with
  | crcb | crc | state => exact absurd (by decide) hr
  | _ => rfl

theorem State.payPre_changes (s : State) : Changes [.crc, .seed, .cursor] s s.payPre := by
  intro r hr
  cases r with
  | crc | seed => exact absurd (by decide) hr
  | _ => rfl

theorem State.payDone_changes (r : Word) (s : State) :
    Changes (exchangeRegs ++ [.crc, .seed, .cursor]) s (State.payDone r s) := by
  unfold State.payDone
  split
  · exact changes_exchangeRegs
  · exact changes_cursor_state.mono (by decide)

theorem State.crcDone_changes (r : Word) (s : State) :
    Changes (exchangeRegs ++ [.peerCrc, .crcMatch]) s (State.crcDone r s) := by
  intro r hr
  cases r with
  | peerCrc | crcMatch | state => exact absurd (by decide) hr
  | _ => rfl

theorem changes_delay_state {d : Word} {c : BitVec 5} :
    Changes [.delay, .state] s { s with delay := d, state := c } := by
  intro r hr
  cases r with
  | delay | state => exact absurd (by decide) hr
  | _ => rfl

theorem State.waitStep_changes (ready again : BitVec 5) (s : State) :
    Changes [.delay, .state] s (s.waitStep ready again) := by
  by_cases h : s.delay = 0#32
  · rw [State.waitStep_leaves _ _ h]; exact changes_delay_state
  · rw [State.waitStep_counts _ _ h]; exact changes_delay_state

/-- Every operation changes at most the registers of its "State written" line. -/
theorem exec_changes {i : Instr} (h : exec i s = .next t) : Changes (writes i) s t := by
  cases i with
  | idle | done | error => cases h; exact .refl _ _
  | regRead off =>
    obtain rfl := regRead_effect h
    intro r _
    cases r <;> rfl
  | lenWrite v =>
    rcases lenWrite_effect h with ⟨-, rfl⟩ | ⟨-, rfl⟩
    · exact .refl _ _
    · intro r hr
      cases r with
      | len => exact absurd List.mem_cons_self hr
      | _ => rfl
  | start =>
    rcases start_effect h with ⟨-, rfl⟩ | ⟨-, -, -, rfl⟩ | ⟨-, -, rfl⟩
    · exact .refl _ _
    all_goals
      intro r hr
      cases r with
      | txw | len => rfl
      | _ => exact absurd (by decide) hr
  | fold =>
    cases h
    intro r hr
    cases r with
    | crc | state => exact absurd (by decide) hr
    | _ => rfl
  | hsWait | finWait => cases h; exact State.waitStep_changes _ _ s
  | hsPoll | finPoll => exact exchange_changes h (.refl _) (State.pollDone_changes _ _)
  | bootreq | hdr =>
    exact exchange_changes h (.refl _) fun _ _ => changes_cursor_state.mono (by decide)
  | hdrEnd | keySync | keyReq1 | finStart | finReq =>
    exact exchange_changes (l := []) h (.refl _) fun _ _ => changes_exchangeRegs
  | keyReq2 => exact exchange_changes h (.refl _) State.tokenDone_changes
  | keyAck =>
    exact exchange_changes h (.refl _) fun _ _ => changes_padlen_state.mono (by decide)
  | len => exact exchange_changes h (.refl _) State.lenDone_changes
  | pay => exact exchange_changes h State.payPre_changes State.payDone_changes
  | finCrc => exact exchange_changes h (.refl _) State.crcDone_changes

/-- Settles O37: operation by operation, what it changes stands in its line. -/
theorem registersChangedOnlyByTheirOperations :
    Obligations.RegistersChangedOnlyByTheirOperations :=
  fun _ _ _ r h hr => exec_changes h r hr

end Frames

section HeaderPhase

variable {s t : State}

/-! ## The header phase (R133, 30_encoding.md rules R72 and R85) -/

theorem State.headerAt_zero (hs : s.state = 4#5) (hp : s.phase = .issue) (hc : s.cursor = 0#32) :
    s.headerAt 0 = s := by
  cases s
  cases hs
  cases hp
  cases hc
  rfl

/-- What a run of exchanges leaves of the link is no register but TXW. -/
theorem Changes.of_unlinked_eq (h : t.unlinked = s.unlinked) : Changes [.txw] s t := by
  have hunlink (v : State) : Changes [.txw] v v.unlinked := by
    intro r hr
    cases r with
    | txw => exact absurd (by decide) hr
    | _ => rfl
  intro r hr
  rw [← hunlink t r hr, h, hunlink s r hr]

/-- Settles O58: the header phase of the session, with what its end leaves of the registers. -/
theorem headerPhaseSendsTheHeader : Obligations.HeaderPhaseSendsTheHeader := by
  intro s rs rest hs hp hc hlen hscript
  obtain ⟨t, hrun, hend⟩ :=
    reaches_header hlen s s rest (by rw [State.headerAt_zero hs hp hc]) hscript
  have hleft : Changes [.state, .cursor, .txw] s t := by
    have hheader : s.headerAt 96 = { s with cursor := 0xC0#32, state := 5#5 } := by
      rw [State.headerAt, ← hp]; rfl
    rw [hheader] at hend
    exact (changes_cursor_state.mono (by decide)).trans
      ((Changes.of_unlinked_eq hend).mono (by decide))
  have hrest := hrun.script hscript
  obtain ⟨hsteps, hframes⟩ := hrun
  exact ⟨t, hsteps, (congrArg State.state hend :), (congrArg State.phase hend :),
    (congrArg State.cursor hend :), hrest, (congrArg State.image hend :),
    fun r hstate hcursor htxw => hleft r (by simp [hstate, hcursor, htxw]), hframes⟩

end HeaderPhase

end Sys2Proof.Machine

/-! SUPPORT. Proofs of the key exchange statements (42_key_exchange.md): the token of R142, the
acknowledgment and the padded length of R143, and the length word and crcB of R144, in every phase. -/

namespace Sys2Proof.Machine

open Sys2Proof.Safety

section ResponseFields

/-! ## The fields of a response as shifts and masks (40_datapath_units.md R100, R114) -/

/-- RX_TAG as the shift of R142: no bit stands above it. -/
theorem rxTag_eq_iff_shift (r : Word) (k : Byte) : rxTag r = k ↔ r >>> 24 = k.setWidth 32 := by
  rw [← BitVec.toNat_inj, ← BitVec.toNat_inj, rxTag_toNat, BitVec.toNat_ushiftRight,
    Nat.shiftRight_eq_div_pow, BitVec.toNat_setWidth_of_le (by decide)]

/-- The mask `0xFF` keeps the low byte. -/
theorem and_byteMask_eq_setWidth (w : Word) : w &&& 0xFF#32 = (w.setWidth 8).setWidth 32 := by
  refine BitVec.eq_of_toNat_eq ?_
  rw [BitVec.toNat_and, BitVec.toNat_setWidth_of_le (by decide), BitVec.toNat_setWidth]
  exact Nat.and_two_pow_sub_one_eq_mod w.toNat 8

theorem setWidth_and_byteMask (w : Word) : (w &&& 0xFF#32).setWidth 8 = w.setWidth 8 := by
  rw [and_byteMask_eq_setWidth, BitVec.setWidth_setWidth_of_le _ (by decide), BitVec.setWidth_eq]

/-- RX_PARAM in a register of its own width. -/
theorem rxParam_eq_setWidth_mask (r : Word) : rxParam r = ((r >>> 16) &&& 0xFF#32).setWidth 8 := by
  rw [setWidth_and_byteMask, BitVec.setWidth_ushiftRight_eq_extractLsb, rxParam]

/-- RX_PARAM in 32 bits. -/
theorem rxParam_setWidth_eq_mask (r : Word) : (rxParam r).setWidth 32 = (r >>> 16) &&& 0xFF#32 := by
  rw [and_byteMask_eq_setWidth, BitVec.setWidth_ushiftRight_eq_extractLsb, rxParam]

/-- The source adds in 32 bits and masks the sum (R114). -/
theorem crcaAdj_eq_setWidth_mask (a : Byte) :
    crcaAdj a = ((a.setWidth 32 + 0xF#32) &&& 0xFF#32).setWidth 8 := by
  rw [setWidth_and_byteMask, BitVec.setWidth_add _ _ (by decide),
    BitVec.setWidth_setWidth_of_le _ (by decide), BitVec.setWidth_eq]
  rfl

end ResponseFields

section KeyExchange

/-! ## The exchanges in every phase (R142 to R144) -/

/-- Any other tag is a rejection that records CURSOR and the token (R142). -/
theorem State.tokenDone_rejected {r : Word} {s : State} (h : rxTag r ≠ 0x73#8) :
    State.tokenDone r s = s.raiseError 3#3 s.cursor r := by
  rw [State.tokenDone, if_pos h]

/-- Settles O28: the tag decides between the token's parameters and the rejection. -/
theorem keyReq2ChecksTheToken : Obligations.KeyReq2ChecksTheToken := by
  refine exchanges_keyReq2.exchangeStep (fun _ => rfl) fun r s => ?_
  have htag : rxTag r = 0x73#8 ↔ r >>> 24 = 0x73#32 := rxTag_eq_iff_shift r 0x73#8
  by_cases h : rxTag r = 0x73#8
  · rw [State.tokenDone_accepted h, if_pos (htag.1 h), seedInit, crcaAdj_eq_setWidth_mask,
      rxParam_setWidth_eq_mask]
  · rw [State.tokenDone_rejected h, if_neg (mt htag.2 h)]
    rfl

/-- Settles O29: the frame as its bytes, and PADLEN by the formula of R110. -/
theorem keyAckSetsPadlen : Obligations.KeyAckSetsPadlen := by
  refine exchanges_keyAck.exchangeStep (fun s => ?_) fun _ s => ?_
  · rw [keyAckFrame_eq_append]; rfl
  · rw [padLen_eq_and_not]

/-- Settles O30: crcB as a shift and a mask, and the comparison of CURSOR and PADLEN as numbers. -/
theorem lenTakesCrcB : Obligations.LenTakesCrcB := by
  refine exchanges_len.exchangeStep (fun _ => rfl) fun r s => ?_
  simp only [State.lenDone, rxParam_eq_setWidth_mask, BitVec.lt_def]

end KeyExchange

end Sys2Proof.Machine

/-! SUPPORT. Proofs of the payload statements (43_payload.md): PAY of R150 in every phase, the fold of R152,
and the payload phase as a whole (R150, R151). -/

namespace Sys2Proof.Machine

open Sys2Proof.Safety

section PayAndFold

variable {s : State} {r : Word}

/-! ## PAY and FOLD in every phase (R150, R152) -/

theorem rxHi_eq_iff_shift (r : Word) (k : Half) : rxHi r = k ↔ r >>> 16 = k.setWidth 32 := by
  rw [← beq_iff_eq, rxHi_beq_eq_shift_beq, beq_iff_eq]

/-- The mask `0xFFFF` keeps the low half. -/
theorem and_halfMask_eq_setWidth (w : Word) : w &&& 0xFFFF#32 = (w.setWidth 16).setWidth 32 := by
  refine BitVec.eq_of_toNat_eq ?_
  rw [BitVec.toNat_and, BitVec.toNat_setWidth_of_le (by decide), BitVec.toNat_setWidth]
  exact Nat.and_two_pow_sub_one_eq_mod w.toNat 16

/-- The echo check as the source's shift and mask (R150). -/
theorem rxHi_eq_cursorLow_iff (r : Word) (s : State) :
    rxHi r = s.cursorLow ↔ r >>> 16 = s.cursor &&& 0xFFFF#32 := by
  rw [rxHi_eq_iff_shift, and_halfMask_eq_setWidth, State.cursorLow]

/-- Any other echo ends the session and records CURSOR and the response (R150). -/
theorem State.payDone_rejected (h : rxHi r ≠ s.cursorLow) :
    State.payDone r s = s.raiseError 4#3 s.cursor r := by
  rw [State.payDone, if_pos h]

/-- Settles O31: the CRC as the bit loop, and the echo decides between the step of CURSOR and the
error. -/
theorem payEncryptsAndVerifies : Obligations.PayEncryptsAndVerifies := by
  refine exchanges_pay.exchangeStep (fun s => ?_) fun r s => ?_
  · rw [← crcWord_eq_crcLoop]; rfl
  · have hecho := rxHi_eq_cursorLow_iff r s
    by_cases h : rxHi r = s.cursorLow
    · simp only [State.payDone_accepted h, if_pos (hecho.1 h), BitVec.lt_def]
    · rw [State.payDone_rejected h, if_neg (mt hecho.2 h)]
      rfl

/-- Settles O32: the fold word as its bytes, and the CRC as the bit loop. -/
theorem foldAddsTheParameters : Obligations.FoldAddsTheParameters := fun s => by
  rw [← foldWord_eq_append, ← crcWord_eq_crcLoop]
  rfl

end PayAndFold

section PayloadPhase

variable {s : State} {n : Nat}

/-! ## The payload phase (R150, R151) -/

/-- The payload loop begins in PAY at offset 0xC0. -/
theorem State.payloadAt_zero (hs : s.state = 11#5) (hp : s.phase = .issue)
    (hc : s.cursor = 0xC0#32) (hpad : 0xC0 < s.padlen.toNat) : s.payloadAt 0 = s := by
  have hmore : payOffset 0 < s.padlen := hpad
  rw [State.payloadAt, if_pos hmore]
  cases s
  cases hs
  cases hp
  cases hc
  rfl

/-- The loop has left for FOLD once CURSOR is at PADLEN. -/
theorem State.payloadAt_of_payOffset_eq (hp : s.phase = .issue) (h : payOffset n = s.padlen) :
    s.payloadAt n =
      { s with
        cursor := s.padlen, seed := seedAfter s.seed n, crc := payCrc s s.crc n, state := 12#5 } := by
  rw [State.payloadAt, h, if_neg (BitVec.lt_irrefl _), ← hp]

/-- The loop changes no register but CURSOR, SEED, CRC and STATE. -/
theorem State.payloadAt_changes (hp : s.phase = .issue) (n : Nat) :
    Changes [.state, .cursor, .seed, .crc] s (s.payloadAt n) := by
  intro r hr
  cases r with
  | state | cursor | seed | crc => exact absurd (by decide) hr
  | phase => rw [Reg.get, Reg.get, hp]; rfl
  | _ => rfl

theorem payOffset_toNat (h : n < 2 ^ 20) : (payOffset n).toNat = 0xC0 + 4 * n := by
  rw [payOffset, BitVec.toNat_ofNat]
  omega

/-- Settles O59: the payload loop of the session, with what its end leaves of the registers. -/
theorem payloadPhaseSendsThePayload : Obligations.PayloadPhaseSendsThePayload := by
  intro s rs rest hs hp hc h16 hlo hhi hlen hecho hscript
  have hmore : ∀ k < rs.length, payOffset k < s.padlen := fun k hk => by
    rw [BitVec.lt_def, payOffset_toNat (by omega)]
    omega
  have hlast : payOffset rs.length = s.padlen := by
    refine BitVec.eq_of_toNat_eq ?_
    rw [payOffset_toNat (by omega)]
    omega
  obtain ⟨t, hrun, hend⟩ := reaches_payload s hmore hecho s rest
    (by rw [State.payloadAt_zero hs hp hc hlo]) hscript
  have hleft : Changes [.state, .cursor, .txw, .seed, .crc] s t :=
    ((State.payloadAt_changes hp _).mono (by decide)).trans
      ((Changes.of_unlinked_eq hend).mono (by decide))
  rw [State.payloadAt_of_payOffset_eq hp hlast] at hend
  have hrest := hrun.script hscript
  obtain ⟨hsteps, hframes⟩ := hrun
  exact ⟨t, hsteps, (congrArg State.state hend :), (congrArg State.phase hend :).trans hp,
    (congrArg State.cursor hend :), hrest, (congrArg State.image hend :),
    (congrArg State.seed hend :), (congrArg State.crc hend :),
    fun r hstate hcursor htxw hseed hcrc =>
      hleft r (by simp [hstate, hcursor, htxw, hseed, hcrc]), hframes⟩

end PayloadPhase

end Sys2Proof.Machine

/-! SUPPORT. Proof of the finalization statement (44_finalization.md): FIN_CRC of R164 in
every phase. -/

namespace Sys2Proof.Machine

section FinCrc

/-! ## FIN_CRC in every phase (R164) -/

/-- RX_HI in a register of its own width (R100). -/
theorem rxHi_eq_setWidth_shift (r : Word) : rxHi r = (r >>> 16).setWidth 16 := by
  rw [BitVec.setWidth_ushiftRight_eq_extractLsb, rxHi]

/-- The test of CRC_MATCH as a comparison of numbers (R36). -/
theorem rxHi_beq_eq_decide_toNat (r : Word) (c : Half) :
    (rxHi r == c) = decide ((r >>> 16).toNat = c.toNat) := by
  rw [Bool.eq_iff_iff, beq_iff_eq, decide_eq_true_iff, rxHi_eq_iff_shift, ← BitVec.toNat_inj,
    BitVec.toNat_setWidth_of_le (by decide)]

/-- Settles O33: the frame as its halves, and one completion whether the CRCs agree or not. -/
theorem finCrcAlwaysSucceeds : Obligations.FinCrcAlwaysSucceeds := by
  refine exchanges_finCrc.exchangeStep (fun s => ?_) fun r s => ?_
  · rw [crcFrame_eq_append]; rfl
  · rw [State.crcDone, rxHi_beq_eq_decide_toNat, rxHi_eq_setWidth_shift]

end FinCrc

end Sys2Proof.Machine

/-! SUPPORT. Proofs of the host command statements (45_host_commands.md): the quiescent states (R170, R175,
R176), START (R171, R172), LEN_WRITE (R173), REG_READ (R174), and what the host can do to STATE and to a
session (R177). -/

namespace Sys2Proof.Machine

open Sys2Proof.Safety

section HostCommands

variable {s : State}

/-! ## The operations (R170 to R176) -/

/-- Settles O34: none of the three has a step of its own. -/
theorem quiescentStatesRest : Obligations.QuiescentStatesRest := fun _ => ⟨rfl, rfl, rfl⟩

/-- START is ignored during a session (R171). -/
theorem exec_start_of_busy (hb : s.busy = true) : exec .start s = .next s := if_pos hb

/-- START outside a session clears it, and then the size check decides (R171, R172). -/
theorem exec_start_of_not_busy (hb : s.busy = false) :
    exec .start s = if preconditionOK s.len then .next { s.clearSession with state := 1#5 }
      else .next (s.clearSession.raiseError 1#3 0#32 s.len) :=
  if_neg (by rw [hb]; exact Bool.false_ne_true)

/-- Settles O35: the three outcomes of START, by BUSY and by the size check. -/
theorem startOpensAFreshSession : Obligations.StartOpensAFreshSession := by
  refine fun s => ⟨exec_start_of_busy, fun hb hlo hhi => ?_, fun hb hrange => ?_⟩
  · exact (exec_start_of_not_busy hb).trans (if_pos ((preconditionOK_iff s.len).2 ⟨hlo, hhi⟩))
  · exact (exec_start_of_not_busy hb).trans (if_neg (mt (preconditionOK_iff s.len).1 hrange))

/-- LEN_WRITE is ignored during a session (R173). -/
theorem exec_lenWrite_of_busy (v : Word) (hb : s.busy = true) : exec (.lenWrite v) s = .next s :=
  congrArg Host.Outcome.next (if_pos hb)

/-- Settles O36: the two outcomes of LEN_WRITE, by BUSY. -/
theorem lenWriteStoresWhenIdle : Obligations.LenWriteStoresWhenIdle := by
  refine fun s v => ⟨fun hb => ?_, exec_lenWrite_of_busy v⟩
  have hidle : ¬ s.busy = true := by rw [hb]; exact Bool.false_ne_true
  exact congrArg Host.Outcome.next (if_neg hidle)

/-- PARAMS as its bytes (R33). -/
theorem State.paramsWord_eq_append (s : State) : s.paramsWord = 0#16 ++ s.crcb ++ s.crca := by
  have hcrcb : s.crcb.setWidth 24 = 0#16 ++ s.crcb := BitVec.setWidth_eq_append (by decide)
  refine Eq.trans ?_ (append_eq_or (0#16 ++ s.crcb) s.crca).symm
  rw [← hcrcb, BitVec.setWidth_setWidth (by decide), State.paramsWord, field_zero, field,
    BitVec.or_comm]

/-- Settles O9: the value read is the register at the offset, and each offset names its register. -/
theorem registerReadReturnsItsRegister : Obligations.RegisterReadReturnsItsRegister := by
  intro s off h4
  refine ⟨s.regAt off, if_pos ((regRead_wf_iff off).2 h4), ?ctrl, ?status, ?len, ?padlen, ?cursor,
    ?seed, ?crc, ?params, ?errOffset, ?errInfo, ?peerCrc, s.regAt_reserved⟩
  case params => rintro rfl; exact s.paramsWord_eq_append
  case crc | peerCrc => rintro rfl; exact BitVec.setWidth_eq_append (by decide)
  all_goals rintro rfl; rfl

end HostCommands

section StateChanges

variable {s t : State}

/-! ## What moves STATE (R170, R175 to R177, 60_exceptions.md rule R208) -/

/-- The ways a step can change STATE. -/
inductive StateChange (s t : State) : Prop where
  /-- A block cycle with the pins at `p`, taken by the state `u` that has sampled them. -/
  | cycle (p : Pins) (hm : p = Pins.quiet ∨ s.moves.head? = some (.clock p)) (u : State)
      (hstate : u.state = s.state) (hphase : u.phase = s.phase) (hpins : u.pins = p) (i : Instr)
      (hd : decodeState u.state = .ok i) (he : exec i u = .next t)
  /-- A START outside a session. -/
  | start (v : Word) (hm : s.moves.head? = some (.host ⟨true, 4, 0x00#32, v⟩))
      (hv : v.getLsbD 0 = true) (hb : s.busy = false) (ht : t.state = 1#5 ∨ t.state = 19#5)
  /-- A reset. -/
  | rst (hm : s.moves.head? = some .rst) (ht : t.state = 0#5)

/-- No other move of an agent changes STATE. -/
theorem step_changes_state (h : step s = .next t) (hne : t.state ≠ s.state) : StateChange s t := by
  cases step_effect h with
  | cycle p rest i hs _ s0 h0 hd he =>
    have hm : p = Pins.quiet ∨ s.moves.head? = some (.clock p) := by
      rcases hs with ⟨-, -, hquiet⟩ | hs
      · exact .inl hquiet
      · exact .inr (by rw [hs]; rfl)
    exact .cycle p hm s0 (by rw [h0]) (by rw [h0]) (by rw [h0]) i hd he
  | start v rest hs hv s0 h0 he =>
    subst h0
    have hm : s.moves.head? = some (.host ⟨true, 4, 0x00#32, v⟩) := by rw [hs]; rfl
    rcases start_effect he with ⟨-, rfl⟩ | ⟨hb, -, -, rfl⟩ | ⟨hb, -, rfl⟩
    · exact absurd rfl hne
    · exact .start v hm hv hb (.inl rfl)
    · exact .start v hm hv hb (.inr rfl)
  | lenWrite v rest _ s0 h0 he =>
    subst h0
    rcases lenWrite_effect he with ⟨-, rfl⟩ | ⟨-, rfl⟩ <;> exact absurd rfl hne
  | rst rest hs ht => subst ht; exact .rst (by rw [hs]; rfl) rfl
  | read _ _ _ _ _ ht | ignored _ _ _ _ ht | image _ _ _ _ _ _ ht | drain _ _ ht
  | relink _ _ ht => subst ht; exact absurd rfl hne

/-- BUSY is read from STATE alone (R27). -/
theorem busy_congr {u : State} (h : u.state = s.state) : u.busy = s.busy := by
  rw [State.busy, State.busy, h]

/-- Settles O41: of the three ways to change STATE, a block cycle rests in a quiescent state. -/
theorem quiescentLeftOnlyByStartOrReset : Obligations.QuiescentLeftOnlyByStartOrReset := by
  intro s t h hb hne
  cases step_changes_state h hne with
  | cycle p _ u hstate _ _ i hd he =>
    have hrest : t = u := cycle_of_not_busy hd he ((busy_congr hstate).trans hb)
    exact absurd (hrest ▸ hstate) hne
  | start v hm hv _ _ => exact .inr ⟨v, hm, hv⟩
  | rst hm _ => exact .inl hm

/-- The one edge of the sequence into DONE leaves FIN_CRC. -/
theorem Follows.of_done {a : BitVec 5} (h : Follows a 18#5) (hne : a ≠ 18#5) : a = 17#5 := by
  have hedge : ∀ e ∈ sequenceEdges, e.2 = 18 → e.1 = 17 := by decide
  rcases h with hrest | hmove | ⟨-, herror⟩
  · exact absurd hrest.symm hne
  · exact BitVec.eq_of_toNat_eq (hedge _ hmove rfl)
  · cases herror

/-- A block cycle that enters DONE completes FIN_CRC's exchange without a failure (R175). -/
theorem CycleEffect.of_done (h : CycleEffect s t) (ht : t.state = 18#5) (hne : s.state ≠ 18#5) :
    s.state = 17#5 ∧ s.phase = .rsp ∧ s.pins.rxValid = true ∧ s.pins.rxFail = false := by
  have hs : s.state = 17#5 := Follows.of_done (ht ▸ h.follows) hne
  cases h with
  | complete _ hp hv hf _ => exact ⟨hs, hp, hv, hf⟩
  | leaveHs h _ _ | leaveFin h _ _ | fold h _ => exact absurd (hs.symm.trans h) (by decide)
  | fail _ _ _ _ hfail => subst hfail; cases ht
  | rest hstay | count _ _ hstay | issue _ _ _ _ hstay | issuePay _ _ _ hstay
  | accept _ _ _ hstay => subst hstay; exact absurd ht hne

/-- Settles O43: of the three ways to change STATE, only a block cycle that completes FIN_CRC enters
DONE, and a cycle without a move completes nothing. -/
theorem doneOnlyAfterTheFinalExchange : Obligations.DoneOnlyAfterTheFinalExchange := by
  intro s t h hdone hne
  cases step_changes_state h (fun heq => hne (heq.symm.trans hdone)) with
  | cycle p hm u hstate hphase hpins i hd he =>
    obtain ⟨hs, hp, hv, hf⟩ := (cycle_effect hd he).of_done hdone (hstate ▸ hne)
    rw [hpins] at hv hf
    rcases hm with rfl | hm
    · cases hv
    · exact ⟨hstate ▸ hs, hphase ▸ hp, p, hm, hv, hf⟩
  | start v _ _ _ ht =>
    rw [hdone] at ht
    exact absurd ht (by decide)
  | rst _ ht =>
    rw [hdone] at ht
    cases ht

end StateChanges

section BusySession

/-! ## A session and the host's moves (R171, R173, R177, 70_reset_and_hazards.md rule R228) -/

/-- No register of the block stands outside it. -/
theorem reg_get_of_outside (s : State) (r : Reg) {image : Memory} {rdata : Word} {cut : Bool}
    {script : List Input} :
    r.get { s with image := image, rdata := rdata, cut := cut, script := script } = r.get s := by
  cases r <;> rfl

/-- Settles O42: START and a LEN write are ignored while BUSY, and every other move of the host but a
reset changes only what stands outside the block. -/
theorem busySessionIgnoresTheHost : Obligations.BusySessionIgnoresTheHost := by
  intro s t m rest hm hb h hrst hclock r
  cases step_effect h with
  | cycle p _ _ hs _ _ _ _ _ =>
    rcases hs with ⟨hs, -, -⟩ | hs
    · cases hm.symm.trans hs
    · exact absurd (List.cons.inj (hm.symm.trans hs)).1 (hclock p)
  | start v rest' _ _ s0 h0 he =>
    have hb0 : s0.busy = true := by rw [h0]; exact hb
    obtain rfl : s0 = t := Host.Outcome.next.inj ((exec_start_of_busy hb0).symm.trans he)
    rw [h0]
    exact reg_get_of_outside s r
  | lenWrite v rest' _ s0 h0 he =>
    have hb0 : s0.busy = true := by rw [h0]; exact hb
    obtain rfl : s0 = t := Host.Outcome.next.inj ((exec_lenWrite_of_busy v hb0).symm.trans he)
    rw [h0]
    exact reg_get_of_outside s r
  | rst _ hs _ => exact absurd (List.cons.inj (hm.symm.trans hs)).1 hrst
  | read _ _ _ _ _ ht | ignored _ _ _ _ ht | image _ _ _ _ _ _ ht | drain _ _ ht
  | relink _ _ ht => subst ht; exact reg_get_of_outside s r

end BusySession

end Sys2Proof.Machine

/-! SUPPORT. Proofs of the exception statements (60_exceptions.md): what enters ERROR and the record it
leaves (R201, R203, R204, R206, R207), and how long a wait lasts and where it ends (R211, with
41_handshake_header.md rule R131, 44_finalization.md rule R162 and 70_reset_and_hazards.md rule R225). -/

namespace Sys2Proof.Machine

open Sys2Proof.Safety

section ErrorEntry

variable {s t : State}

/-! ## The entry to ERROR (R201, R203, R206, R207) -/

/-- A checked response that ends the session with the error `code` (R201): a token with another tag, or
an echo that is not CURSOR's low half. -/
def Rejects (s : State) (code : BitVec 3) : Prop :=
  (s.state = 8#5 ∧ s.pins.rxWord >>> 24 ≠ 0x73#32 ∧ code = 3#3) ∨
  (s.state = 11#5 ∧ s.pins.rxWord >>> 16 ≠ s.cursor &&& 0xFFFF#32 ∧ code = 4#3)

/-- The error that the completion of an exchange raises (R201): a failure comes before any check of the
response (R207). -/
def CompletionFault (s : State) (code : BitVec 3) (info : Word) : Prop :=
  (s.pins.rxFail = true ∧ code = 2#3 ∧ info = 0#32) ∨
  (s.pins.rxFail = false ∧ Rejects s code ∧ info = s.pins.rxWord)

/-- A completion that enters ERROR rejects its response, and raises the error with the response as its
record. -/
theorem Completed.of_error (h : Completed s t) (ht : t.state = 19#5) :
    ∃ code, Rejects s code ∧
      t = { s with phase := .issue }.raiseError code s.cursor s.pins.rxWord := by
  rcases h with ⟨-, rfl⟩ | ⟨-, rfl⟩ | ⟨-, rfl⟩ | ⟨-, rfl⟩ | ⟨-, rfl⟩ | ⟨-, rfl⟩ | ⟨-, rfl⟩ |
    ⟨-, -, rfl⟩ | ⟨hs, htag, rfl⟩ | ⟨-, rfl⟩ | ⟨-, rfl⟩ | ⟨-, -, rfl⟩ | ⟨hs, hecho, rfl⟩ | ⟨-, rfl⟩ |
    ⟨-, rfl⟩ | ⟨-, rfl⟩
  · cases ht
  · cases ht
  · cases ht
  · dsimp only at ht; split at ht <;> cases ht
  · cases ht
  · cases ht
  · cases ht
  · cases ht
  · exact ⟨3#3, .inl ⟨hs, mt (rxTag_eq_iff_shift s.pins.rxWord 0x73#8).2 htag, rfl⟩, rfl⟩
  · cases ht
  · dsimp only at ht; split at ht <;> cases ht
  · dsimp only at ht; split at ht <;> cases ht
  · exact ⟨4#3, .inr ⟨hs, mt (rxHi_eq_cursorLow_iff _ s).2 hecho, rfl⟩, rfl⟩
  · cases ht
  · cases ht
  · cases ht

/-- A block cycle that enters ERROR completes an exchange that fails or whose response is rejected, and
raises that error at CURSOR. -/
theorem CycleEffect.of_error (h : CycleEffect s t) (ht : t.state = 19#5) (hne : s.state ≠ 19#5) :
    exchangeState s.state = true ∧ s.phase = .rsp ∧ s.pins.rxValid = true ∧
      ∃ code info, CompletionFault s code info ∧
        t = { s with phase := .issue }.raiseError code s.cursor info := by
  have hfollows : Follows s.state 19#5 := ht ▸ h.follows
  cases h with
  | fail he hp hv hf hfail => exact ⟨he, hp, hv, 2#3, 0#32, .inl ⟨hf, rfl, rfl⟩, hfail⟩
  | complete he hp hv hf hc =>
    obtain ⟨code, hreject, hraise⟩ := hc.of_error ht
    exact ⟨he, hp, hv, code, _, .inr ⟨hf, hreject, rfl⟩, hraise⟩
  | rest hstay | count _ _ hstay | issue _ _ _ _ hstay | issuePay _ _ _ hstay
  | accept _ _ _ hstay => subst hstay; exact absurd ht hne
  | leaveHs hs _ _ => exact absurd (hs ▸ hfollows : Follows 2#5 19#5) (by decide)
  | leaveFin hs _ _ => exact absurd (hs ▸ hfollows : Follows 15#5 19#5) (by decide)
  | fold _ hfold => subst hfold; cases ht

/-- Settles O44: of all that a step can do, only a START out of range and a completion at fault enter
ERROR, and a cycle without a move completes nothing. -/
theorem errorsHaveTheirCauses : Obligations.ErrorsHaveTheirCauses := by
  intro s t h herror hne
  cases step_effect h with
  | cycle p rest i hs _ s0 h0 hd he =>
    subst h0
    obtain ⟨hx, hp, hv, code, info, hfault, rfl⟩ := (cycle_effect hd he).of_error herror hne
    have hm : s.moves.head? = some (.clock p) := by
      rcases hs with ⟨-, -, rfl⟩ | hs
      · cases hv
      · rw [hs]; rfl
    refine .inr ⟨hx, hp, rfl, rfl, rfl, rfl, rfl, rfl, p, hm, hv, ?_⟩
    rcases hfault with hfail | ⟨hf, ⟨hs, htag, hcode⟩ | ⟨hs, hecho, hcode⟩, hinfo⟩
    · exact .inl hfail
    · exact .inr (.inl ⟨hf, hs, htag, hcode, hinfo⟩)
    · exact .inr (.inr ⟨hf, hs, hecho, hcode, hinfo⟩)
  | start v rest hs hv s0 h0 he =>
    subst h0
    rcases start_effect he with ⟨-, rfl⟩ | ⟨-, -, -, rfl⟩ | ⟨hb, hrange, rfl⟩
    · exact absurd herror hne
    · cases herror
    · exact .inl ⟨hb, hrange, rfl, rfl, rfl, rfl, v, by rw [hs]; rfl, hv⟩
  | lenWrite v rest _ s0 h0 he =>
    subst h0
    rcases lenWrite_effect he with ⟨-, rfl⟩ | ⟨-, rfl⟩ <;> exact absurd herror hne
  | rst rest _ ht => subst ht; cases herror
  | read _ _ _ _ _ ht | ignored _ _ _ _ ht | image _ _ _ _ _ _ ht | drain _ _ ht
  | relink _ _ ht => subst ht; exact absurd herror hne

end ErrorEntry

section Waits

variable {s t : State} {poll wait : Instr} {c w next : BitVec 5} {k : Half} {ready : Word → Bool}

/-! ## The waits of the two poll loops (R211, 41 rule R131, 44 rule R162, 70 rule R225) -/

/-- One transition of a wait state that is still counting: whoever moves, a reset excepted, the block
stays where it is and DELAY loses at most one tick. -/
theorem PollLoop.step_wait (hl : PollLoop poll wait c w next k ready) (hw : s.state = w)
    (hb : s.busy = true) (hrst : noReset s.moves) (hcount : s.delay ≠ 0#32) (h : step s = .next t) :
    t.state = s.state ∧ t.phase = s.phase ∧ s.delay.toNat ≤ t.delay.toNat + 1 := by
  cases step_effect h with
  | cycle p rest i _ _ s0 h0 hd he =>
    have hwait : decodeState s0.state = .ok wait := by rw [h0, ← hl.decode_wait, ← hw]
    obtain rfl : wait = i := Except.ok.inj (hwait.symm.trans hd)
    subst h0
    rw [hl.exec_wait, State.waitStep_counts _ _ (by exact hcount)] at he
    cases he
    exact ⟨rfl, rfl, by bv_omega⟩
  | start v rest _ _ s0 h0 he =>
    have hb0 : s0.busy = true := by rw [h0]; exact hb
    obtain rfl : s0 = t := Host.Outcome.next.inj ((exec_start_of_busy hb0).symm.trans he)
    subst h0; exact ⟨rfl, rfl, Nat.le_succ _⟩
  | lenWrite v rest _ s0 h0 he =>
    have hb0 : s0.busy = true := by rw [h0]; exact hb
    obtain rfl : s0 = t := Host.Outcome.next.inj ((exec_lenWrite_of_busy v hb0).symm.trans he)
    subst h0; exact ⟨rfl, rfl, Nat.le_succ _⟩
  | rst rest hs _ => exact absurd (by rw [hs]; exact List.mem_cons_self) hrst
  | read _ _ _ _ _ ht | ignored _ _ _ _ ht | image _ _ _ _ _ _ ht | drain _ _ ht
  | relink _ _ ht => subst ht; exact ⟨rfl, rfl, Nat.le_succ _⟩

/-- As many transitions as DELAY counts do not end a wait. -/
theorem PollLoop.run_wait (hl : PollLoop poll wait c w next k ready) {n : Nat} (hw : s.state = w)
    (hb : s.busy = true) (hscript : noReset s.script) (hloop : noReset s.loop)
    (hn : n ≤ s.delay.toNat) (h : core.run n s = .next t) :
    t.state = s.state ∧ t.phase = s.phase := by
  induction n generalizing s with
  | zero => cases h; exact ⟨rfl, rfl⟩
  | succ n ih =>
    obtain ⟨u, hstep, hrun⟩ := run_next h
    have hmoves := noReset_moves hscript hloop
    have hcount : s.delay ≠ 0#32 := fun hzero => by rw [hzero] at hn; cases hn
    obtain ⟨hstate, hphase, hdelay⟩ := hl.step_wait hw hb hmoves hcount hstep
    obtain ⟨htail, hsame⟩ := step_agents hstep
    rw [← hstate, ← hphase]
    exact ih (hstate.trans hw) ((busy_congr hstate).trans hb)
      (htail ▸ fun hmem => hmoves (List.mem_of_mem_tail hmem)) (hsame ▸ hloop) (by omega) hrun

/-- One scripted quiet cycle of a wait state. -/
theorem PollLoop.step_wait_quiet (hl : PollLoop poll wait c w next k ready) (hw : s.state = w)
    {rest : List Input} (hscript : s.script = .clock Pins.quiet :: rest) :
    step s = .next (({ s with script := rest, pins := Pins.quiet } : State).waitStep next c) := by
  rw [step_clock hscript (.inl rfl) (hw ▸ hl.decode_wait), State.nextRequest_quiet, hl.exec_wait]

/-- A wait state lasts DELAY quiet cycles and one more, and leaves by POLLHIT. -/
theorem PollLoop.run_wait_quiet (hl : PollLoop poll wait c w next k ready) {n : Nat}
    (hw : s.state = w) (hn : s.delay.toNat = n) {rest : List Input}
    (hscript : s.script = quietCycles (n + 1) ++ rest) :
    core.run (n + 1) s = .next
      { s with
        delay := 0#32, script := rest, pins := Pins.quiet
        state := if s.pollhit then next else c } := by
  induction n generalizing s with
  | zero =>
    have hstep := hl.step_wait_quiet hw hscript
    have hzero : s.delay = 0#32 := BitVec.eq_of_toNat_eq hn
    rw [run_succ hstep, State.waitStep_leaves _ _ (by exact hzero), ← hzero]
    rfl
  | succ n ih =>
    have hcount : s.delay ≠ 0#32 := fun h => by rw [h] at hn; cases hn
    have hstep := hl.step_wait_quiet hw hscript
    rw [State.waitStep_counts _ _ (by exact hcount)] at hstep
    rw [run_succ hstep]
    exact ih hw (by bv_omega) rfl

/-- Settles O54: both clauses for the delay of either poll loop. -/
theorem waitLastsItsDelay : Obligations.WaitLastsItsDelay := by
  refine ⟨fun s t n hs hscript hloop hn hrun => ?_, fun s rest hs hscript => ?_⟩
  · have hb : s.busy = true := by rcases hs with hs | hs <;> rw [State.busy, hs] <;> decide
    have hstay : t.state = s.state ∧ t.phase = s.phase := by
      rcases hs with hs | hs
      · exact pollLoop_handshake.run_wait hs hb hscript hloop hn hrun
      · exact pollLoop_finalization.run_wait hs hb hscript hloop hn hrun
    exact ⟨hstay.1, congrArg (· == Phase.req) hstay.2⟩
  · rcases hs with hs | hs
    · rw [if_pos hs]
      exact pollLoop_handshake.run_wait_quiet hs rfl hscript
    · rw [if_neg (by rw [hs]; decide)]
      exact pollLoop_finalization.run_wait_quiet hs rfl hscript

end Waits

end Sys2Proof.Machine

/-! SUPPORT. Proofs of the reset and hazard statements (70_reset_and_hazards.md): what a reset clears and
leaves (R220), the drain it makes due (R222), the transport's account of the requests (R226, with
60_exceptions.md rule R216) and the waits without a bound (R231). -/

namespace Sys2Proof.Machine

open Sys2Proof.Safety

section ResetAndDrain

/-! ## Reset and the drain (R220, R222, 10_state.md rule R46) -/

theorem phase_ne_issue_iff (ph : Phase) : ph ≠ .issue ↔ ph = .req ∨ ph = .rsp := by
  cases ph <;> decide

/-- A reset gives every register its reset value. -/
theorem reg_get_resetBlock (s : State) (r : Reg) : r.get s.resetBlock = r.get State.reset := by
  cases r <;> rfl

/-- A drain is due after a reset that cut an exchange, or when it was due before. -/
theorem State.resetBlock_cut_iff (s : State) :
    s.resetBlock.cut = true ↔ s.cut = true ∨ s.phase = .req ∨ s.phase = .rsp := by
  rw [State.resetBlock_cut, Bool.or_eq_true, decide_eq_true_iff, phase_ne_issue_iff]

/-- Settles O13: the step of a reset, register by register. -/
theorem resetClearsTheBlock : Obligations.ResetClearsTheBlock := fun s rest hm =>
  ⟨({ s with script := rest } : State).resetBlock, step_rst hm, reg_get_resetBlock _, rfl, rfl, rfl,
    rfl, rfl, rfl, rfl, State.resetBlock_cut_iff { s with script := rest }⟩

/-- Settles O14: such a START breaks the drain duty, and a drain is a step of its own. -/
theorem startWaitsForTheDrain : Obligations.StartWaitsForTheDrain := by
  refine ⟨fun s v rest hm hv hcut hb hlo hhi => ?_, fun s rest hm => step_of_moves hm⟩
  exact step_host_undrained hm
    (breaksDrainDuty_iff.2 ⟨hcut, hb, ⟨hlo, hhi⟩, decodeAccess_start v hv⟩)

end ResetAndDrain

section Account

variable {s t : State} {p : Pins}

/-! ## The transport's account of the requests (R226, 60_exceptions.md rule R216) -/

/-- The acceptance of the offered frame makes a request outstanding. -/
theorem State.nextRequest_accepted (hp : s.phase = .req) (hr : p.txReady = true) :
    s.nextRequest p = .outstanding := by
  simp [State.nextRequest, State.txValid, hp, hr]

/-- A completion strobe in PHASE RSP answers the outstanding request. -/
theorem State.nextRequest_completed (hp : s.phase = .rsp) (hout : s.request = .outstanding)
    (hv : p.rxValid = true) : s.nextRequest p = .answered := by
  simp [State.nextRequest, State.txValid, hp, hout, hv]

/-- All that a cycle can do to the account. -/
theorem State.nextRequest_cases (p : Pins) (s : State) :
    (s.nextRequest p = .outstanding ∧ s.phase = .req ∧ p.txReady = true) ∨
    (s.nextRequest p = .answered ∧ p.rxValid = true ∧ s.request = .outstanding) ∨
    s.nextRequest p = s.request := by
  unfold State.nextRequest
  split
  · rename_i haccept
    obtain ⟨hreq, hready⟩ := (Bool.and_eq_true _ _).mp haccept
    exact .inl ⟨rfl, beq_iff_eq.1 hreq, hready⟩
  split
  · rename_i hcomplete
    obtain ⟨hvalid, hout⟩ := (Bool.and_eq_true _ _).mp hcomplete
    exact .inr (.inl ⟨rfl, hvalid, beq_iff_eq.1 hout⟩)
  · exact .inr (.inr rfl)

/-- A block cycle brings the account up to date. -/
theorem blockCycle_request (h : blockCycle p s = .next t) : t.request = s.nextRequest p := by
  obtain ⟨-, i, hd, he⟩ := blockCycle_next h
  exact congrArg Outside.request (exec_outside (decodeState_ne_regRead hd) he)

/-- A scripted cycle brings the account up to date. -/
theorem step_clock_request (h : step s = .next t) (hm : s.moves.head? = some (.clock p)) :
    t.request = s.nextRequest p := by
  obtain ⟨rest, hm⟩ := List.head?_eq_some_iff.1 hm
  rw [step_of_moves hm] at h
  exact blockCycle_request (s := { s with script := rest }) h

/-- Only a scripted cycle and a reset change the account. -/
theorem step_request (h : step s = .next t) :
    t.request = s.request ∨
    (∃ p, s.moves.head? = some (.clock p) ∧ t.request = s.nextRequest p) ∨
    (s.moves.head? = some .rst ∧ s.phase ≠ .issue ∧ t.request = .outstanding) := by
  cases step_effect h with
  | cycle p rest i hs _ s0 h0 hd he =>
    have hnext : t.request = s0.request :=
      congrArg Outside.request (exec_outside (decodeState_ne_regRead hd) he)
    subst h0
    rcases hs with ⟨-, -, rfl⟩ | hs
    · exact .inl (hnext.trans s.nextRequest_quiet)
    · exact .inr (.inl ⟨p, by rw [hs]; rfl, hnext⟩)
  | start v rest _ _ s0 h0 he =>
    subst h0
    exact .inl (congrArg Outside.request (exec_outside (i := .start) nofun he))
  | lenWrite v rest _ s0 h0 he =>
    subst h0
    exact .inl (congrArg Outside.request (exec_outside (i := .lenWrite v) nofun he))
  | rst rest hs ht =>
    subst ht
    by_cases hp : s.phase = .issue
    · exact .inl (if_pos hp)
    · exact .inr (.inr ⟨by rw [hs]; rfl, hp, if_neg hp⟩)
  | read _ _ _ _ _ ht | ignored _ _ _ _ ht | image _ _ _ _ _ _ ht | drain _ _ ht
  | relink _ _ ht => subst ht; exact .inl rfl

/-- A second completion of one request is refused (93 §3). -/
theorem blockCycle_second_completion (hanswered : s.request = .answered) (hv : p.rxValid = true) :
    blockCycle p s = .refused .secondCompletion :=
  if_pos (by simp [State.completesTwice, hanswered, hv])

/-- An exchange state selects an exchange operation (10_state.md rule R22). -/
theorem exchanges_of_exchangeState (he : exchangeState s.state = true) :
    ∃ i pre frame complete, decodeState s.state = .ok i ∧ Exchanges i pre frame complete := by
  have hheld : ∀ c : BitVec 5, exchangeState c = true → c.toNat < 20 := by decide
  obtain ⟨i, hd⟩ := decodeState_held (hheld _ he)
  obtain ⟨pre, frame, complete, hx, -⟩ := exists_exchanges ((isExchange_of_decodeState hd).trans he)
  exact ⟨i, pre, frame, complete, hd, hx⟩

/-- A cycle of an exchange state that completes no request twice answers. -/
theorem blockCycle_exchange_answers (he : exchangeState s.state = true)
    (honce : p.rxValid = false ∨ s.request ≠ .answered) : ∃ t, blockCycle p s = .next t := by
  obtain ⟨i, pre, frame, complete, hd, hx⟩ := exchanges_of_exchangeState he
  rw [blockCycle_runs honce hd, hx.exec]
  exact exchange_answers _

/-- PHASE RSP stands in an exchange state only (10_state.md rule R22). -/
theorem rspInExchange_of_codesLegal (h : CodesLegal s) : RspInExchange s := fun hp => by
  by_contra hx
  rw [h.phaseQuiet (Bool.eq_false_iff.2 hx)] at hp
  cases hp

/-- Settles O53: the refusal, the answer to the awaited completion, and what moves the account. -/
theorem oneCompletionPerRequest : Obligations.OneCompletionPerRequest := by
  refine ⟨fun s p rest hm hanswered hv => ?_, fun s p rest hinv hp hm => ?_,
    fun s t h hopen hout => ?_, fun s t h hout hdone => ?_, fun s t p h hm => ⟨?_, ?_⟩⟩
  · rw [step_of_moves hm]
    exact blockCycle_second_completion (s := { s with script := rest }) hanswered hv
  · have hout : s.request ≠ .answered := by rw [hinv.pending hp]; decide
    have he : exchangeState s.state = true := rspInExchange_of_codesLegal hinv.codes hp
    rw [step_of_moves hm]
    exact blockCycle_exchange_answers (s := { s with script := rest }) he (.inr hout)
  · rcases step_request h with hsame | ⟨p, hm, hnext⟩ | ⟨hm, hcut, -⟩
    · exact absurd (hsame.symm.trans hout) hopen
    · rcases s.nextRequest_cases p with ⟨-, hreq, hready⟩ | ⟨hans, -, -⟩ | hsame
      · exact .inl ⟨hreq, p, hm, hready⟩
      · cases hout.symm.trans (hnext.trans hans)
      · exact absurd (hsame.symm.trans (hnext.symm.trans hout)) hopen
    · exact .inr ⟨hcut, hm⟩
  · rcases step_request h with hsame | ⟨p, hm, hnext⟩ | ⟨-, -, hcut⟩
    · exact absurd (hsame.trans hout) hdone
    · rcases s.nextRequest_cases p with ⟨hacc, -, -⟩ | ⟨hans, hvalid, -⟩ | hsame
      · exact absurd (hnext.trans hacc) hdone
      · exact ⟨hnext.trans hans, p, hm, hvalid⟩
      · exact absurd (hnext.trans (hsame.trans hout)) hdone
    · exact absurd hcut hdone
  · rintro ⟨hp, hr⟩
    rw [step_clock_request h hm, State.nextRequest_accepted hp hr]
  · intro hp hout hv
    rw [step_clock_request h hm, State.nextRequest_completed hp hout hv]

end Account

section EndlessRuns

variable {s t : State}

/-! ## Runs that go on for every number of steps (R231, 60_exceptions.md rule R216) -/

/-- The first steps of a run that goes on make a run. -/
theorem run_of_longer_run {n m : Nat} (hn : n ≤ m) (h : core.run m s = .next t) :
    ∃ u, core.run n s = .next u := by
  induction n generalizing s m with
  | zero => exact ⟨s, rfl⟩
  | succ n ih =>
    cases m with
    | zero => cases hn
    | succ m =>
      obtain ⟨v, hstep, hrun⟩ := run_next h
      rw [run_succ hstep]
      exact ih (Nat.le_of_succ_le_succ hn) hrun

/-- A machine that always comes back to `P` after some steps goes on for ever. -/
theorem run_of_return {P : State → Prop}
    (hback : ∀ s, P s → ∃ m t, 0 < m ∧ core.run m s = .next t ∧ P t) (hs : P s) (n : Nat) :
    ∃ t, core.run n s = .next t := by
  induction n using Nat.strongRecOn generalizing s with
  | ind n ih =>
    obtain ⟨m, t, hpos, hrun, ht⟩ := hback s hs
    rcases Nat.le_total n m with hn | hn
    · exact run_of_longer_run hn hrun
    · obtain ⟨k, rfl⟩ := Nat.exists_eq_add_of_le hn
      rw [run_add hrun]
      exact ih k (by omega) ht

/-- When the script is used up, the loop takes its place (log 1). -/
theorem step_of_loop {ms : List Input} (hscript : s.script = []) (hloop : s.loop = ms) :
    step s = step { s with script := ms } := by
  have hmoves : s.moves = ms := by rw [State.moves, hscript, hloop]
  cases ms with
  | nil => rw [← hscript]
  | cons m rest =>
    have hmoves' : ({ s with script := m :: rest } : State).moves = m :: rest := rfl
    rw [step_of_moves hmoves, step_of_moves hmoves']

/-- So a run that begins with the loop is one whose script is the loop. -/
theorem run_of_loop {ms : List Input} {n : Nat} (hpos : 0 < n) (hscript : s.script = [])
    (hloop : s.loop = ms) : core.run n s = core.run n { s with script := ms } := by
  cases n with
  | zero => cases hpos
  | succ n =>
    have hstep : core.step s = core.step { s with script := ms } := step_of_loop hscript hloop
    simp only [Host.Core.run, hstep]

end EndlessRuns

section EndlessPolls

variable {s t : State} {poll wait : Instr} {c w next : BitVec 5} {k : Half} {ready : Word → Bool}
  {rs : List Reply}

/-! ## The poll that is never answered ready (R231, 41 rules R130 and R131, 44 rules R161 and R162) -/

/-- The poll in the code `c` begins, and the agents play `rs` over and over. -/
structure PollBegins (c : BitVec 5) (rs : List Reply) (s : State) : Prop where
  state : s.state = c
  phase : s.phase = .issue
  script : s.script = []
  loop : s.loop = pollCycles (delayTicks s.cfg).toNat rs

/-- Polls that are not ready lead back to where the poll begins. -/
theorem PollLoop.reaches_begin (hl : PollLoop poll wait c w next k ready)
    (hnot : ∀ r ∈ rs, ready r.word = false) (hs : s.state = c) (hp : s.phase = .issue) :
    ∃ fs u, Reaches s (pollCycles (delayTicks s.cfg).toNat rs) fs u ∧ u.state = c ∧
      u.phase = .issue ∧ u.loop = s.loop ∧ u.cfg = s.cfg := by
  induction rs generalizing s with
  | nil => exact ⟨[], s, Reaches.refl s, hs, hp, rfl, rfl⟩
  | cons r rs ih =>
    have hround := hl.round hs hp r
    rw [hnot r List.mem_cons_self, if_neg (by decide)] at hround
    obtain ⟨fs, u, hrest, hu⟩ := ih (s := { s with
      phase := .issue, pollhit := false, delay := 0#32, state := c })
      (fun q hq => hnot q (List.mem_cons_of_mem _ hq)) rfl rfl
    exact ⟨_, u, hround.append hrest, hu⟩

/-- One turn of the loop, and the poll begins anew. -/
theorem PollLoop.run_turn (hl : PollLoop poll wait c w next k ready) (hne : rs ≠ [])
    (hnot : ∀ r ∈ rs, ready r.word = false) (hs : PollBegins c rs s) :
    ∃ m t, 0 < m ∧ core.run m s = .next t ∧ PollBegins c rs t := by
  obtain ⟨hstate, hphase, hscript, hloop⟩ := hs
  obtain ⟨fs, u, hturn, hu, hu', hul, huc⟩ := hl.reaches_begin hnot hstate hphase
  have hmoves : pollCycles (delayTicks s.cfg).toNat rs =
      pollCycles (delayTicks s.cfg).toNat rs ++ [] := (List.append_nil _).symm
  obtain ⟨t, hruns, hlink⟩ := hturn
    { s with script := pollCycles (delayTicks s.cfg).toNat rs } [] rfl hmoves
  have hpos : 0 < (pollCycles (delayTicks s.cfg).toNat rs).length := by
    obtain ⟨r, rs, rfl⟩ := List.exists_cons_of_ne_nil hne
    simp [pollCycles, Reply.cycles]
  have htl : t.loop = s.loop := (congrArg State.loop hlink).trans hul
  have htc : t.cfg = s.cfg := (congrArg State.cfg hlink).trans huc
  refine ⟨_, t, hpos, (run_of_loop hpos hscript hloop).trans hruns.1, ?_⟩
  exact ⟨(congrArg State.state hlink).trans hu, (congrArg State.phase hlink).trans hu',
    hruns.script hmoves, by rw [htl, htc, hloop]⟩

/-- The transport completes no exchange with a failure or a ready answer. -/
def Unready (ready : Word → Bool) (p : Pins) : Prop :=
  p.rxFail = false ∧ (p.rxValid = true → ready p.rxWord = false)

/-- The moves are cycles of such a transport. -/
def UnreadyCycles (ready : Word → Bool) (ms : List Input) : Prop :=
  ∀ m ∈ ms, ∃ p, Unready ready p ∧ m = .clock p

theorem unready_quiet (ready : Word → Bool) : Unready ready Pins.quiet := ⟨rfl, nofun⟩

theorem unreadyCycles_pollCycles (d : Nat) (hnot : ∀ r ∈ rs, ready r.word = false) :
    UnreadyCycles ready (pollCycles d rs) := by
  intro m hm
  obtain ⟨r, hr, hm⟩ := List.mem_flatMap.1 hm
  have hm : m = .clock Pins.quiet ∨ m = .clock accept ∨ m = .clock (answer r.word) := by
    simp only [Reply.cycles, quietCycles, List.mem_append, List.mem_cons, List.mem_replicate,
      List.not_mem_nil] at hm
    tauto
  rcases hm with rfl | rfl | rfl
  · exact ⟨_, unready_quiet ready, rfl⟩
  · exact ⟨accept, ⟨rfl, nofun⟩, rfl⟩
  · exact ⟨answer r.word, ⟨rfl, fun _ => hnot r hr⟩, rfl⟩

/-- The block polls, or waits after a poll that was not answered ready. -/
def Polling (c w : BitVec 5) (s : State) : Prop :=
  s.state = c ∨ (s.state = w ∧ s.pollhit = false)

/-- A cycle of such a transport keeps the block in the poll loop. -/
theorem PollLoop.blockCycle_polling (hl : PollLoop poll wait c w next k ready) {p : Pins}
    (hp : Unready ready p) (hs : Polling c w s) (h : blockCycle p s = .next t) :
    Polling c w t := by
  obtain ⟨hok, hunready⟩ := hp
  obtain ⟨-, i, hd, he⟩ := blockCycle_next h
  rcases hs with hs | ⟨hs, hmiss⟩
  · obtain rfl : poll = i := Except.ok.inj (hl.decode_poll.symm.trans (hs ▸ hd))
    rw [hl.exchanges.exec] at he
    rcases exchange_cases he with ⟨-, rfl⟩ | ⟨-, -, rfl⟩ | ⟨-, -, rfl⟩ | ⟨-, -, rfl⟩ |
      ⟨-, -, hfail, -⟩ | ⟨-, hvalid, -, rfl⟩
    · exact .inl hs
    · exact .inl hs
    · exact .inl hs
    · exact .inl hs
    · exact absurd (hok.symm.trans hfail) Bool.false_ne_true
    · exact .inr ⟨rfl, hunready hvalid⟩
  · obtain rfl : wait = i := Except.ok.inj (hl.decode_wait.symm.trans (hs ▸ hd))
    rw [hl.exec_wait] at he
    cases he
    by_cases hzero : s.delay = 0#32
    · rw [State.waitStep_leaves _ _ (by exact hzero)]
      exact .inl (if_neg (by rw [hmiss]; exact Bool.false_ne_true))
    · rw [State.waitStep_counts _ _ (by exact hzero)]
      exact .inr ⟨hs, hmiss⟩

/-- A step keeps the block in the poll loop when the moves to come are such cycles. -/
theorem PollLoop.step_polling (hl : PollLoop poll wait c w next k ready)
    (hm : UnreadyCycles ready s.moves) (hs : Polling c w s) (h : step s = .next t) :
    Polling c w t := by
  rcases step_cases s with ⟨-, he⟩ | ⟨m, rest, hmoves, he⟩ <;> rw [he] at h
  · exact hl.blockCycle_polling (unready_quiet ready) hs h
  · obtain ⟨p, hp, rfl⟩ := hm m (hmoves ▸ List.mem_cons_self)
    exact hl.blockCycle_polling (s := { s with script := rest }) hp hs h

/-- A run keeps the block in the poll loop when script and loop hold such cycles only. -/
theorem PollLoop.run_polling (hl : PollLoop poll wait c w next k ready)
    (hscript : UnreadyCycles ready s.script) (hloop : UnreadyCycles ready s.loop)
    (hs : Polling c w s) {n : Nat} (h : core.run n s = .next t) : Polling c w t := by
  induction n generalizing s with
  | zero => cases h; exact hs
  | succ n ih =>
    obtain ⟨u, hstep, hrun⟩ := run_next h
    have hmoves : UnreadyCycles ready s.moves := by
      unfold State.moves
      split
      · exact hloop
      · rename_i hm; exact hm ▸ hscript
    obtain ⟨htail, hsame⟩ := step_agents hstep
    exact ih (htail ▸ fun m hmem => hmoves m (List.mem_of_mem_tail hmem)) (hsame ▸ hloop)
      (hl.step_polling hmoves hs hstep) hrun

/-- Polls that are never answered ready go on for every number of steps, and stay in the poll loop. -/
theorem PollLoop.run_never_ends (hl : PollLoop poll wait c w next k ready) (hne : rs ≠ [])
    (hnot : ∀ r ∈ rs, ready r.word = false) (hs : PollBegins c rs s) (n : Nat) :
    ∃ t, core.run n s = .next t ∧ (t.state = c ∨ t.state = w) := by
  obtain ⟨t, hrun⟩ := run_of_return (fun _ => hl.run_turn hne hnot) hs n
  have hpolling : Polling c w t := hl.run_polling (by rw [hs.script]; exact List.forall_mem_nil _)
    (hs.loop ▸ unreadyCycles_pollCycles _ hnot) (.inl hs.state) hrun
  exact ⟨t, hrun, hpolling.imp_right And.left⟩

end EndlessPolls

section EndlessExchange

variable {s : State}

/-! ## The exchange that is never completed (R231, 60_exceptions.md rule R216) -/

/-- Without a move an exchange that is offered or outstanding stays as it is. -/
theorem step_exchange_rests (he : exchangeState s.state = true) (hp : s.phase ≠ .issue)
    (hm : s.moves = []) : step s = .next { s with pins := Pins.quiet } := by
  obtain ⟨i, pre, frame, complete, hd, hx⟩ := exchanges_of_exchangeState he
  rw [step_of_no_moves hm, blockCycle_runs (.inl rfl) hd, State.nextRequest_quiet, hx.exec]
  rcases (phase_ne_issue_iff s.phase).1 hp with hreq | hrsp
  · exact exchange_offered (s := { s with pins := Pins.quiet }) hreq rfl
  · exact exchange_pending (s := { s with pins := Pins.quiet }) hrsp rfl

/-- Without a move the exchange stays where it is for every number of steps. -/
theorem run_exchange_rests (he : exchangeState s.state = true) (hp : s.phase ≠ .issue)
    (hm : s.moves = []) (n : Nat) :
    ∃ t, core.run n s = .next t ∧ t.state = s.state ∧ t.phase = s.phase := by
  induction n generalizing s with
  | zero => exact ⟨s, rfl, rfl, rfl⟩
  | succ n ih =>
    rw [run_succ (step_exchange_rests he hp hm)]
    exact ih (s := { s with pins := Pins.quiet }) he hp hm

/-- Settles O55: the two poll loops under answers that are never ready, and the exchange at rest. -/
theorem pollingMayNeverEnd : Obligations.PollingMayNeverEnd := by
  refine ⟨fun s rs hne hp hscript hloop => ⟨fun hs hnot => ?_, fun hs hnot => ?_⟩,
    fun s he hp hm => run_exchange_rests he hp hm⟩
  · exact pollLoop_handshake.run_never_ends hne
      (fun r hr => beq_eq_false_iff_ne.2 (hnot r hr)) ⟨hs, hp, hscript, hloop⟩
  · exact pollLoop_finalization.run_never_ends hne
      (fun r hr => beq_eq_false_iff_ne.2 (hnot r hr)) ⟨hs, hp, hscript, hloop⟩

end EndlessExchange

end Sys2Proof.Machine
